-- ==== Sys2Proof/Word.lean ====
section
/-! DEFINITION. The machine's data widths (spec/00_scope.md R23, spec/30_encoding.md R150): plain types, nothing a repair would mend. -/

namespace Sys2Proof

/-- One byte of a buffer or of a storage sector. -/
abbrev Byte := BitVec 8

/-- A 16-bit quantity: the `ARG` of an operation word, a slot index, a container field. -/
abbrev Half := BitVec 16

/-- A 32-bit word: an operation word, a register, a sector number, a block-local address. -/
abbrev Word := BitVec 32

end Sys2Proof
end

