-- ==== Sys2Proof/Syntax.lean ====
section
/-! DEFINITION. The operation words as syntax: one constructor per row of spec/opcode_table.json (spec/30_encoding.md R153). -/

namespace Sys2Proof

/-- The operations of "PPG-VDEC operation words, edition 1". An operand is held as the field of the word
that carries it: `arg` and `t` are `ARG` (bits 15:0), `sel` is `SEL` (bits 23:16), of which only bit 0 may
be set (R154, checked by `Instr.wellFormed`). -/
inductive Instr where
  /-- R231 -/
  | nop
  /-- R232 -/
  | playPause
  /-- R233: `arg` is the speed before sign extension. -/
  | setSpeed (arg : Half)
  /-- R234 -/
  | toggleDir
  /-- R235 -/
  | stepFwd
  /-- R236 -/
  | stepBack
  /-- R237 -/
  | nextStream
  /-- R238 -/
  | prevStream
  /-- R239 -/
  | volUp
  /-- R240 -/
  | volDown
  /-- R401: `t` is a frame row. -/
  | dQvalid (t : Half)
  /-- R402: `t` is a frame row. -/
  | dQoffset (t : Half)
  /-- R403: bit 0 of `sel` is the consumer, `t` is a frame row. -/
  | dAdvance (sel : Byte) (t : Half)
  /-- R406 -/
  | dTick
  /-- R456: bit 0 of `sel` is the audio slot. -/
  | aDone (sel : Byte)
deriving DecidableEq, Repr

end Sys2Proof
end

