-- ==== Sys2Proof/WellFormed.lean ====
section
/-! DEFINITION. Which instruction terms an operation word can stand for (spec/30_encoding.md R154). -/

namespace Sys2Proof

/-- R154: `SEL[7:1]` must be 0 where `SEL` carries a consumer or slot number. Every value of `ARG` is a
value some word carries; its range is a matter of the operation's own rule (R233, R403). -/
def Instr.wellFormed : Instr → Bool
  | .dAdvance sel _ => sel.toNat < 2
  | .aDone sel => sel.toNat < 2
  | .nop | .playPause | .setSpeed _ | .toggleDir | .stepFwd | .stepBack | .nextStream | .prevStream
  | .volUp | .volDown | .dQvalid _ | .dQoffset _ | .dTick => true

end Sys2Proof
end

