-- ==== Sys2Proof/Decode.lean ====
section
/-! DEFINITION. Decoding and encoding of operation words (spec/30_encoding.md R150 to R155, R158). -/

namespace Sys2Proof

/-- The three ports that take operation words (R150). -/
inductive Port where
  | host
  | display
  | audio
deriving DecidableEq, Repr

/-- Why a word is illegal at a port (R155). -/
inductive IllegalWord where
  /-- The opcode is assigned to no operation at any port. -/
  | reservedOpcode
  /-- The opcode is an operation of another port. -/
  | wrongPort
  /-- A must-be-zero bit of R154 is 1. -/
  | nonzeroMustBeZero
deriving DecidableEq, Repr

/-- What decoding a word at a port gives. -/
inductive Decoded where
  | instr (i : Instr)
  | illegal (why : IllegalWord)
deriving DecidableEq, Repr

/-- R150: `OPC`, bits 31:24. -/
def opcOf (w : Word) : Nat := (w.extractLsb' 24 8).toNat

/-- R150: `SEL`, bits 23:16. -/
def selOf (w : Word) : Byte := w.extractLsb' 16 8

/-- R150: `ARG`, bits 15:0. -/
def argOf (w : Word) : Half := w.extractLsb' 0 16

/-- R151, R153: the port an assigned opcode belongs to; none for a reserved opcode. -/
def portOfOpc (opc : Nat) : Option Port :=
  if opc ≤ 0x09 then some .host
  else if 0x20 ≤ opc ∧ opc ≤ 0x23 then some .display
  else if opc = 0x30 then some .audio
  else none

/-- R153: the operation of an opcode, its operand fields taken from the word. -/
def operationOf (opc : Nat) (sel : Byte) (arg : Half) : Option Instr :=
  match opc with
  | 0x00 => some .nop
  | 0x01 => some .playPause
  | 0x02 => some (.setSpeed arg)
  | 0x03 => some .toggleDir
  | 0x04 => some .stepFwd
  | 0x05 => some .stepBack
  | 0x06 => some .nextStream
  | 0x07 => some .prevStream
  | 0x08 => some .volUp
  | 0x09 => some .volDown
  | 0x20 => some (.dQvalid arg)
  | 0x21 => some (.dQoffset arg)
  | 0x22 => some (.dAdvance sel arg)
  | 0x23 => some .dTick
  | 0x30 => some (.aDone sel)
  | _ => none

/-- R154: the must-be-zero bits of `SEL` and `ARG` are 0 for this operation. -/
def mustBeZeroOk (i : Instr) (sel : Byte) (arg : Half) : Bool :=
  match i with
  | .nop | .playPause | .toggleDir | .stepFwd | .stepBack | .nextStream | .prevStream
  | .volUp | .volDown | .dTick => sel.toNat = 0 && arg.toNat = 0
  | .setSpeed _ | .dQvalid _ | .dQoffset _ => sel.toNat = 0
  | .dAdvance _ _ => sel.toNat < 2
  | .aDone _ => sel.toNat < 2 && arg.toNat = 0

/-- Decoding at a port, total on every word. The checks stand in R155's order: reserved opcode, opcode of
another port, must-be-zero bits (DEDUCED, log 9). -/
def decode (p : Port) (w : Word) : Decoded :=
  match operationOf (opcOf w) (selOf w) (argOf w) with
  | none => .illegal .reservedOpcode
  | some i =>
    if portOfOpc (opcOf w) ≠ some p then .illegal .wrongPort
    else if mustBeZeroOk i (selOf w) (argOf w) then .instr i
    else .illegal .nonzeroMustBeZero

/-- R155: the `ILLEGAL_OP` subcause a rejected word raises. -/
def IllegalWord.subcause : IllegalWord → Nat
  | .reservedOpcode => 1
  | .nonzeroMustBeZero => 1
  | .wrongPort => 2

/-- R153: the opcode of an operation. -/
def Instr.opc : Instr → Nat
  | .nop => 0x00
  | .playPause => 0x01
  | .setSpeed _ => 0x02
  | .toggleDir => 0x03
  | .stepFwd => 0x04
  | .stepBack => 0x05
  | .nextStream => 0x06
  | .prevStream => 0x07
  | .volUp => 0x08
  | .volDown => 0x09
  | .dQvalid _ => 0x20
  | .dQoffset _ => 0x21
  | .dAdvance _ _ => 0x22
  | .dTick => 0x23
  | .aDone _ => 0x30

/-- R151: the port an operation belongs to. -/
def Instr.port : Instr → Port
  | .nop | .playPause | .setSpeed _ | .toggleDir | .stepFwd | .stepBack | .nextStream | .prevStream
  | .volUp | .volDown => .host
  | .dQvalid _ | .dQoffset _ | .dAdvance _ _ | .dTick => .display
  | .aDone _ => .audio

/-- The `SEL` field an operation encodes (R154). -/
def Instr.selField : Instr → Byte
  | .dAdvance sel _ => sel
  | .aDone sel => sel
  | .nop | .playPause | .setSpeed _ | .toggleDir | .stepFwd | .stepBack | .nextStream | .prevStream
  | .volUp | .volDown | .dQvalid _ | .dQoffset _ | .dTick => 0

/-- The `ARG` field an operation encodes (R154). -/
def Instr.argField : Instr → Half
  | .setSpeed arg => arg
  | .dQvalid t => t
  | .dQoffset t => t
  | .dAdvance _ t => t
  | .nop | .playPause | .toggleDir | .stepFwd | .stepBack | .nextStream | .prevStream
  | .volUp | .volDown | .dTick | .aDone _ => 0

/-- R158: `word = (OPC << 24) | (SEL << 16) | (ARG & 0xFFFF)`. -/
def encode (i : Instr) : Word :=
  BitVec.ofNat 32 i.opc <<< 24 ||| i.selField.setWidth 32 <<< 16 ||| i.argField.setWidth 32

/-- The port a table word is delivered at: the one its opcode belongs to (R151), the host command port for
a reserved opcode. -/
def tablePort (w : Word) : Port := (portOfOpc (opcOf w)).getD .host

/-- The low `nbits` bits of `w` as an operation word, the bits above them 0. -/
def tableWord (nbits w : Nat) : Word := BitVec.ofNat 32 (w % 2 ^ nbits)

/-- What this decoder reads from an opcode-table word, delivered at the port of its opcode. -/
def decodeTableWord (nbits w : Nat) : Option Instr :=
  match decode (tablePort (tableWord nbits w)) (tableWord nbits w) with
  | .instr i => some i
  | .illegal _ => none

/-- R159: the assembler's aliases, each of one word. -/
inductive Pseudo where
  /-- `speed.normal` -/
  | speedNormal
  /-- `speed.ff k`, k in 1..3 -/
  | speedFf (k : Nat)
  /-- `speed.slow k`, k in 1..16 -/
  | speedSlow (k : Nat)
  /-- `d.line c, L`, a scan-line number -/
  | dLine (c : Byte) (line : Nat)
deriving DecidableEq, Repr

/-- R159: what an alias stands for. -/
def Pseudo.expand : Pseudo → Instr
  | .speedNormal => .setSpeed 0
  | .speedFf k => .setSpeed (BitVec.ofNat 16 k)
  | .speedSlow k => .setSpeed (BitVec.ofInt 16 (-(k : Int)))
  | .dLine c line => .dAdvance c (BitVec.ofNat 16 (line / 2))

/-- R158: the assembler line of an operation. -/
def Instr.assembly : Instr → String
  | .nop => "nop"
  | .playPause => "play_pause"
  | .setSpeed arg => "set_speed " ++ toString arg.toInt
  | .toggleDir => "toggle_dir"
  | .stepFwd => "step_fwd"
  | .stepBack => "step_back"
  | .nextStream => "next_stream"
  | .prevStream => "prev_stream"
  | .volUp => "vol_up"
  | .volDown => "vol_down"
  | .dQvalid t => "d.qvalid " ++ toString t.toNat
  | .dQoffset t => "d.qoffset " ++ toString t.toNat
  | .dAdvance sel t => "d.advance " ++ toString sel.toNat ++ ", " ++ toString t.toNat
  | .dTick => "d.tick"
  | .aDone sel => "a.done " ++ toString sel.toNat

end Sys2Proof
end

