-- ==== Sys2Proof/Config.lean ====
section
/-! DEFINITION. What is fixed for a run or left open: the parameters of spec/00_scope.md section 4, the steps the agents may
take (R6), and the free values, opaque constants without a body. -/

namespace Sys2Proof

/-- R17: when a flip is armed. -/
inductive FlipPolicy where
  | cadence
  | ready
deriving DecidableEq, Repr

/-- R20, R175: `P_DIRECTORY` is the default directory of R175 and R176, or another function, which is then the
free function `Config.otherDirectory` (log 14). -/
inductive DirectoryKind where
  | mbr
  | other
deriving DecidableEq, Repr

/-- One embedded stream: the device sector of its sector 0 and its length in sectors (spec/10_state.md R40). -/
structure Stream where
  base : Word
  len : Word
deriving DecidableEq, Repr, Inhabited

/-- The parameter values of spec/00_scope.md R10 to R20, before their constraints. -/
structure ParamValues where
  /-- R10 -/
  width : Nat
  /-- R10 -/
  height : Nat
  /-- R11 -/
  ringWords : Nat
  /-- R12 -/
  rowSlots : Nat
  /-- R13 -/
  audioSlotWords : Nat
  /-- R15 -/
  refreshPerFrame : Nat
  /-- R16 -/
  maxBatchSectors : Nat
  /-- R17 -/
  flipPolicy : FlipPolicy
  /-- R19 -/
  magic0 : Word
  /-- R19 -/
  magic1 : Word
  /-- R20 -/
  directory : DirectoryKind
  /-- R20; sector numbers are 32 bits (log 14). -/
  deviceSectors : Word
deriving DecidableEq, Repr

/-- R10: `ROWS = P_HEIGHT / 2`, the rows of a frame. -/
def ParamValues.rows (p : ParamValues) : Nat := p.height / 2

/-- The constraints of R10 to R16. -/
def ParamValues.legal (p : ParamValues) : Bool :=
  p.width % 2 = 0 && p.height % 2 = 0 && 1 ≤ p.rows && p.rows ≤ 215
    && 129 ≤ p.ringWords && p.ringWords ≤ 4194304
    && p.rows + 1 ≤ p.rowSlots && p.rowSlots ≤ 65536
    && p.audioSlotWords % 128 = 0 && 128 ≤ p.audioSlotWords && p.audioSlotWords ≤ 262144
    && 1 ≤ p.refreshPerFrame && p.refreshPerFrame ≤ 15
    && 1 ≤ p.maxBatchSectors && p.maxBatchSectors ≤ 65535

/-- Parameters a model can be built with. spec/60_exceptions.md R508: "A model given an odd dimension or a parameter
outside its constraint refuses to build": here such a value cannot be built. -/
structure Params extends ParamValues where
  ok : toParamValues.legal = true
deriving DecidableEq, Repr

/-- R21: `P_VOL_STEP`. -/
def Config.volStep : Nat := 16

/-- R20: `MAX_STREAMS`. -/
def Config.maxStreams : Nat := 4

/-- The parameters of the machine after power-on reset: the values spec/00_scope.md gives as examples (DESIGN CHOICE, log 1:
the spec leaves them OPEN; every statement but those on `State.reset` is about every legal value). -/
def Config.params : Params where
  width := 8
  height := 8
  ringWords := 512
  rowSlots := 8
  audioSlotWords := 256
  refreshPerFrame := 1
  maxBatchSectors := 8
  flipPolicy := .cadence
  magic0 := 0x564D4F50
  magic1 := 0x21444E45
  directory := .mbr
  deviceSectors := 1000
  ok := by decide

/-- The issuers of display-port words (spec/43_display_sync.md R400). -/
inductive Caller where
  | disp0
  | disp1
  | vt
deriving DecidableEq, Repr, Inhabited

/-- The agents that read the block-local space over the bus (spec/20_memory.md R102). -/
inductive Reader where
  | host
  | disp0
  | disp1
  | aud
deriving DecidableEq, Repr, Inhabited

/-- One step of one agent (R6, R7): the unit of interleaving. -/
inductive Turn where
  /-- DEC takes the step of its state, if one is enabled. -/
  | dec
  /-- HOST writes `value` with an access of `size` bytes. -/
  | hostWrite (addr : Word) (size : Nat) (value : Word)
  /-- An agent reads `size` bytes. -/
  | busRead (reader : Reader) (addr : Word) (size : Nat)
  /-- A word arrives at the display port. -/
  | display (caller : Caller) (word : Word)
  /-- AUD delivers a word at the audio port. -/
  | audio (word : Word)
  /-- STOR lands up to `words` further words of the outstanding read. -/
  | storLand (words : Nat)
  /-- STOR completes the outstanding read. -/
  | storComplete
deriving DecidableEq, Repr, Inhabited

/-- Which agent moves when no turn is given (spec/93_implementation_defined.md I18: the interleaving is not fixed), for
the n-th such choice. Free (log 2). -/
opaque Config.freeTurn : Nat → Turn

/-- The n-th byte drawn for a value the spec leaves open: a read of a word in flight (spec/20_memory.md R118), a consumer's read of
RING outside the valid window (spec/70_reset_and_hazards.md R562), a byte that a stale read leaves (R561). Free (logs 5, 24, 26). -/
opaque Config.freeByte : Nat → Byte

/-- What a byte of HDRBUF, AUD0, AUD1 or RING holds at power-on, by block-local address (spec/70_reset_and_hazards.md R550:
unspecified). Free (log 4). -/
opaque Config.powerOnByte : Nat → Byte

/-- What the storage device holds at a byte address (512 times the sector plus the offset) that `disk` does not list
(spec/20_memory.md R109: "any contents"). Free (log 6). -/
opaque Config.storageByte : Nat → Byte

/-- A `P_DIRECTORY` other than the default (R20), of the 512 bytes of device sector 0. Free (log 14). -/
opaque Config.otherDirectory : List Byte → List Stream

/-- What a table entry outside its table's bounds would read as, and the remainder by a zero length: no rule states it and
no state that a run reaches needs it. Free (log 12). -/
opaque Config.outside : Nat → Word

end Sys2Proof
end

