-- ==== Sys2Proof/Machine/State.lean ====
section
/-! DEFINITION. The machine's state as plain data (spec/10_state.md) and its value after power-on reset
(spec/70_reset_and_hazards.md R550). -/

namespace Sys2Proof.Machine

/-- No step of this machine stops it: "Events are not faults of the issuing agent: no operation is aborted by an event
except as its own rule says, and no agent is stopped" (spec/60_exceptions.md R501), and a refused bus access is an answer
(spec/20_memory.md R107). So there is no fault to name, and nobody raises one (safe). -/
inductive Fault
deriving DecidableEq, Repr

/-- Why the model gives no meaning. -/
inductive Refusal where
  /-- Raised by an arm of `exec` for an instruction that has no meaning yet; no arm does (safe). -/
  | notModelled (mnemonic : String)
deriving DecidableEq, Repr

/-- R31: `S.state`, in the spec's order; `DecState.code` is its 4-bit encoding. -/
inductive DecState where
  | init
  | newFrame
  | needHeader
  | readingHeader
  | needVideo
  | preppingVideo
  | readingVideo
  | awaitAudioBuffer
  | needAudio
  | readingAudio
  | postProcessAudio
  | audioReady
  | frameReady
  | hitEnd
  | error
deriving DecidableEq, Repr

/-- R54: the states of an audio slot. -/
inductive SlotState where
  | empty
  | filling
  | queued
deriving DecidableEq, Repr

/-- R31 to R33. -/
structure Fsm where
  state : DecState
  initPhase : Bool
  en : Bool
deriving DecidableEq, Repr

/-- R34 to R38: the playback controls. `dir` is true for backward. -/
structure Controls where
  paused : Bool
  dir : Bool
  speed : BitVec 8
  volume : BitVec 8
  stepPending : Bool
deriving DecidableEq, Repr

/-- R39: the next-sector override. -/
structure Override where
  valid : Bool
  stream : BitVec 8
  sector : Word
deriving DecidableEq, Repr

/-- R40: the stream table and the current stream. -/
structure StreamState where
  count : BitVec 8
  table : Vector Stream 4
  sel : BitVec 8
  baseCur : Word
  lenCur : Word
deriving DecidableEq, Repr

/-- R41, R42. -/
structure Sequencing where
  curSector : Word
  nextSector : Word
  searchCtr : Word
  terminal : Bool
deriving DecidableEq, Repr

/-- R43: the latched header fields, with the widths of spec/30_encoding.md R160. `ro` has `ROWS + 1` entries. -/
structure Header where
  sector : Word
  frameNumber : Word
  timestamp : Word
  width : Half
  height : Half
  imageWords : Word
  audioWords : Word
  audioFreq : Word
  audioChannels : Half
  headerBytes : Half
  totalSectors : Word
  lastFrameSector : Word
  link : Vector Word 8
  ro : List Half
deriving DecidableEq, Repr

/-- R44: the read-progress cursors. -/
structure Cursors where
  imgSector0 : Word
  imgWords : Word
  imgSectors : Half
  fetchSec : Half
  doneWords : Word
  rowsPlanned : Half
  frameRingBase : Word
  writeOff : Word
deriving DecidableEq, Repr

/-- R47 to R50: the row indices. -/
structure Window where
  validFrom : Half
  validTo : Half
  displayStart : Half
  plannedTo : Half
deriving DecidableEq, Repr

/-- R52: a frame record. `aslot` none is the spec's code 3. -/
structure FrameRec where
  valid : Bool
  ready : Bool
  startSlot : Half
  sector : Word
  frameNumber : Word
  timestamp : Word
  speed : BitVec 8
  dir : Bool
  aslot : Option (Fin 2)
deriving DecidableEq, Repr

/-- R53: display synchronisation. -/
structure Display where
  showing : Bool
  armed : Bool
  holdCtr : BitVec 8
  pos0 : Half
  pos1 : Half
deriving DecidableEq, Repr

/-- R54: an audio slot; its buffer is in `State.mem`. -/
structure AudioSlot where
  state : SlotState
  given : Bool
  shown : Bool
  audible : Bool
  words : Word
deriving DecidableEq, Repr

/-- spec/30_encoding.md R170: a fragment of a read request; `dest` is a block-local byte address or `DISCARD`. -/
structure Frag where
  dest : Word
  words : Nat
deriving DecidableEq, Repr

/-- spec/30_encoding.md R170: a read request. -/
structure Request where
  lba : Word
  count : Half
  frags : List Frag
deriving DecidableEq, Repr

/-- R55: the outstanding request. `landed` counts the words of it that STOR has written
(the transfer in progress of spec/20_memory.md R112; log 7). `stale` says that a reset came while it was outstanding, so that what it
leaves at its destinations is unspecified (spec/70_reset_and_hazards.md R561, spec/93_implementation_defined.md I19; log 26). -/
structure Dma where
  busy : Bool
  req : Request
  landed : Nat
  stale : Bool
deriving DecidableEq, Repr

/-- R56: events and diagnostics. -/
structure EventState where
  cause : BitVec 8
  subcause : BitVec 8
  desyncCount : Word
  fmtErrCount : Word
  irqStatus : BitVec 6
  irqEnable : BitVec 6
deriving DecidableEq, Repr

/-- What the block sends out of its ports. -/
inductive Output where
  /-- spec/30_encoding.md R157: a response word of the display port. -/
  | response (issuer : Caller) (word : Word)
  /-- spec/44_audio.md R454: `Give(k, addr, words)` to AUD. -/
  | give (slot : Fin 2) (addr : Word) (words : Word)
  /-- The answer to a bus read; `error` is the bus-error response of spec/20_memory.md R107. -/
  | readData (reader : Reader) (value : Word) (error : Bool)
  /-- spec/20_memory.md R107: the bus-error response to a refused write of HOST. -/
  | writeError
deriving DecidableEq, Repr

/-- The model's own fields (not the spec's): the agents' steps to come, the counters of the free values taken, the caller of
the display-port word in hand, and the outputs so far, newest first (logs 2, 5, 11). -/
structure Env where
  turns : List Turn
  picks : Nat
  draws : Nat
  caller : Caller
  emitted : List Output
deriving DecidableEq, Repr

/-- Byte storage: (address, byte) pairs with strictly rising addresses; an address not listed has never been written. -/
abbrev Mem := List Host.Cell

/-- The whole machine. -/
structure State where
  /-- The parameters, fixed for a run (spec/00_scope.md section 4; log 1). -/
  cfg : Params
  /-- `DISK`, fixed for a run, by device byte address (spec/20_memory.md R109; log 6). -/
  disk : Mem
  fsm : Fsm
  ctl : Controls
  ovr : Override
  strm : StreamState
  seq : Sequencing
  /-- R43: `S.hdr_valid` -/
  hdrValid : Bool
  hdr : Header
  cur : Cursors
  /-- R46: the row-offset table, `P_ROW_SLOTS` entries. -/
  rt : List Word
  win : Window
  next : FrameRec
  disp : FrameRec
  /-- R52: `S.dec_shown` -/
  decShown : Bool
  dsp : Display
  slot0 : AudioSlot
  slot1 : AudioSlot
  dma : Dma
  ev : EventState
  /-- HDRBUF, AUD0, AUD1 and RING, by block-local byte address (spec/20_memory.md R101; log 4). -/
  mem : Mem
  env : Env
deriving DecidableEq, Repr

/-- R52: a frame record at reset, and `{ all 0, aslot 3 }` of spec/43_display_sync.md R410. -/
def FrameRec.none : FrameRec :=
  { valid := false, ready := false, startSlot := 0, sector := 0, frameNumber := 0, timestamp := 0,
    speed := 0, dir := false, aslot := Option.none }

/-- R54: an audio slot at reset. -/
def AudioSlot.none : AudioSlot :=
  { state := .empty, given := false, shown := false, audible := false, words := 0 }

/-- R43, R550: the header latch at reset. -/
def Header.zero (p : Params) : Header :=
  { sector := 0, frameNumber := 0, timestamp := 0, width := 0, height := 0, imageWords := 0, audioWords := 0,
    audioFreq := 0, audioChannels := 0, headerBytes := 0, totalSectors := 0, lastFrameSector := 0,
    link := Vector.replicate 8 0, ro := List.replicate (p.rows + 1) 0 }

/-- R40, R550: the stream state at reset. -/
def StreamState.zero : StreamState :=
  { count := 0, table := Vector.replicate 4 { base := 0, len := 0 }, sel := 0, baseCur := 0, lenCur := 0 }

/-- spec/70_reset_and_hazards.md R550: power-on reset of a block built with the parameters `p`. -/
def State.powerOn (p : Params) : State :=
  { cfg := p
    disk := []
    fsm := { state := .init, initPhase := false, en := false }
    ctl := { paused := false, dir := false, speed := 0, volume := 255, stepPending := false }
    ovr := { valid := false, stream := 0, sector := 0 }
    strm := StreamState.zero
    seq := { curSector := 0, nextSector := 0, searchCtr := 0, terminal := false }
    hdrValid := false
    hdr := Header.zero p
    cur := { imgSector0 := 0, imgWords := 0, imgSectors := 0, fetchSec := 0, doneWords := 0, rowsPlanned := 0,
             frameRingBase := 0, writeOff := 0 }
    rt := List.replicate p.rowSlots 0
    win := { validFrom := 0, validTo := 0, displayStart := 0, plannedTo := 0 }
    next := FrameRec.none
    disp := FrameRec.none
    decShown := false
    dsp := { showing := false, armed := false, holdCtr := 0, pos0 := 0, pos1 := 0 }
    slot0 := AudioSlot.none
    slot1 := AudioSlot.none
    dma := { busy := false, req := { lba := 0, count := 0, frags := [] }, landed := 0, stale := false }
    ev := { cause := 0, subcause := 0, desyncCount := 0, fmtErrCount := 0, irqStatus := 0, irqEnable := 0 }
    mem := []
    env := { turns := [], picks := 0, draws := 0, caller := .disp0, emitted := [] } }

/-- The machine right after power-on reset, built with the spec's example parameters (log 1). -/
def State.reset : State := State.powerOn Config.params

end Sys2Proof.Machine
end

