-- ==== Sys2Proof/Machine/Operands.lean ====
section
/-! DEFINITION. Operand forms and the arithmetic the rules share: operand assembly (spec/30_encoding.md R152), ring indices
(spec/00_scope.md R26), little-endian fields (R25), audio samples (spec/44_audio.md R453). -/

namespace Sys2Proof.Machine

/-- R154: a consumer or slot number is `SEL[0]`. -/
def unitOf (sel : Byte) : Fin 2 := if sel.getLsbD 0 then 1 else 0

/-- R152: `zext_32(ARG)`, a frame row. -/
def rowOf (t : Half) : Nat := t.toNat

/-- R152: `sext_32(ARG)`, a speed. -/
def speedOf (arg : Half) : Int := arg.toInt

/-- spec/40_commands.md R233: the speeds `set_speed` accepts. -/
def speedLegal (v : Int) : Bool := -16 ≤ v && v ≤ 3

/-- R26: `add_N(a, k) = (a + k) mod N`. -/
def addN (n a k : Nat) : Nat := (a + k) % n

/-- R26: `dist_N(a, b) = (b - a) mod N`, the non-negative remainder. -/
def distN (n a b : Nat) : Nat := (b % n + (n - a % n)) % n

/-- R26: slot `x` is in the window `[f, t)` of modulus `n`. -/
def inWindowN (n f t x : Nat) : Bool := distN n f x < distN n f t

/-- R25: an unsigned little-endian 16-bit field at byte offset `off`. -/
def le16 (b : Nat → Byte) (off : Nat) : Half := BitVec.ofNat 16 ((b off).toNat + 256 * (b (off + 1)).toNat)

/-- R25: an unsigned little-endian 32-bit field at byte offset `off`. -/
def le32 (b : Nat → Byte) (off : Nat) : Word :=
  BitVec.ofNat 32
    ((b off).toNat + 256 * (b (off + 1)).toNat + 65536 * (b (off + 2)).toNat + 16777216 * (b (off + 3)).toNat)

/-- spec/20_memory.md R104: byte `i` of a word stored least significant byte first. -/
def byteOfWord (w : Word) (i : Nat) : Byte := BitVec.ofNat 8 (w.toNat / 256 ^ i)

/-- The four bytes of a word, lowest address first (R104). -/
def wordBytes (w : Word) : List Byte := [byteOfWord w 0, byteOfWord w 1, byteOfWord w 2, byteOfWord w 3]

/-- R104: the zero-extended value of bytes read from rising addresses. -/
def valueOfBytes : List Byte → Nat
  | [] => 0
  | b :: bs => b.toNat + 256 * valueOfBytes bs

/-- spec/44_audio.md R453: `Gain1(x, g) = asr(x * (g + 1), 8)`, the floor of `x * (g + 1) / 256`. -/
def gain1 (x : Int) (g : Nat) : Int := (x * (g + 1)) / 256

/-- Two 16-bit fields in one word, the first in bits 15:0. -/
def halves (lo hi : Half) : Word := hi.setWidth 32 <<< 16 ||| lo.setWidth 32

/-- R453: the gain on both signed halves of a stereo word. -/
def gainWord (g : BitVec 8) (w : Word) : Word :=
  halves (BitVec.ofInt 16 (gain1 (w.extractLsb' 0 16).toInt g.toNat))
    (BitVec.ofInt 16 (gain1 (w.extractLsb' 16 16).toInt g.toNat))

/-- spec/43_display_sync.md R412: `Hold(sp) = P_REFRESH_PER_FRAME * (1 + max(0, -sp))`. -/
def holdCount (p : Params) (sp : BitVec 8) : Nat := p.refreshPerFrame * (1 + (-sp.toInt).toNat)

/-- spec/41_decoder_fsm.md R293: the link index `2m + d`, with `m` the speed magnitude of the forward tiers. -/
def linkIndex (sp : BitVec 8) (backward : Bool) : Nat := 2 * sp.toInt.toNat + backward.toNat

/-- R161: the link value of a frame that does not exist. -/
def absentLink : Word := 0xFFFFFFFF

end Sys2Proof.Machine
end

