-- ==== Sys2Proof/Machine/Flags.lean ====
section
/-! DEFINITION. Event codes, interrupt bits and the status views (spec/60_exceptions.md R500, R510, R511;
spec/10_state.md R31, R59). -/

namespace Sys2Proof.Machine

/-- The events a rule raises (R500, R510). -/
inductive Event where
  | desyncRow
  | desyncUnderrun
  | format (sub : Nat)
  | terminalSearch
  | noStream
  | illegalOp (sub : Nat)
  | hitEnd
  | flip
deriving DecidableEq, Repr

/-- R500: the cause code and subcause of an error-class event; none for `HIT_END`, and for `FLIP`, which has no code
(DEDUCED, log 16). -/
def Event.code : Event → Option (Nat × Nat)
  | .desyncRow => some (1, 0)
  | .desyncUnderrun => some (2, 0)
  | .format sub => some (3, sub)
  | .terminalSearch => some (4, 0)
  | .noStream => some (5, 0)
  | .illegalOp sub => some (6, sub)
  | .hitEnd => none
  | .flip => none

/-- R510: the interrupt status bit of an event. -/
def Event.irqBit : Event → Nat
  | .desyncRow => 0
  | .desyncUnderrun => 0
  | .format _ => 1
  | .terminalSearch => 2
  | .noStream => 2
  | .flip => 3
  | .illegalOp _ => 4
  | .hitEnd => 5

/-- R500: what recording an event does to the event registers. -/
def Event.record (e : Event) (v : EventState) : EventState :=
  { v with
    cause := match e.code with | some (c, _) => BitVec.ofNat 8 c | none => v.cause
    subcause := match e.code with | some (_, sub) => BitVec.ofNat 8 sub | none => v.subcause
    irqStatus := v.irqStatus ||| BitVec.ofNat 6 (2 ^ e.irqBit) }

/-- R511: the level of the interrupt line. -/
def irqLine (v : EventState) : Bool := v.irqStatus &&& v.irqEnable != 0

/-- R31: the encoding of `S.state`. -/
def DecState.code : DecState → Nat
  | .init => 0
  | .newFrame => 1
  | .needHeader => 2
  | .readingHeader => 3
  | .needVideo => 4
  | .preppingVideo => 5
  | .readingVideo => 6
  | .awaitAudioBuffer => 7
  | .needAudio => 8
  | .readingAudio => 9
  | .postProcessAudio => 10
  | .audioReady => 11
  | .frameReady => 12
  | .hitEnd => 13
  | .error => 14

/-- R54: the encoding of a slot's state. -/
def SlotState.code : SlotState → Nat
  | .empty => 0
  | .filling => 1
  | .queued => 2

/-- A flag at bit `i` of a register. -/
def flagAt (b : Bool) (i : Nat) : Nat := if b then 2 ^ i else 0

/-- R59: the value `STATUS` reads. -/
def statusWord (s : State) : Word :=
  BitVec.ofNat 32
    (s.fsm.state.code + flagAt s.ctl.paused 4 + flagAt s.ctl.dir 5 + flagAt s.dsp.showing 6 + flagAt s.dsp.armed 7
      + flagAt s.dma.busy 8 + flagAt s.seq.terminal 9 + flagAt s.ovr.valid 10 + flagAt s.ctl.stepPending 11
      + s.slot0.state.code * 2 ^ 12 + s.slot1.state.code * 2 ^ 14 + flagAt s.slot0.given 16 + flagAt s.slot1.given 17
      + flagAt s.next.valid 18 + flagAt s.next.ready 19 + flagAt s.hdrValid 20 + flagAt s.fsm.en 21
      + flagAt (irqLine s.ev) 22)

end Sys2Proof.Machine
end

