-- ==== Sys2Proof/Machine/Ops.lean ====
section
/-! DEFINITION. The named operations over memory and state that the rules share: byte storage, the address map, the two
frame records, the slots, recording an event, and the two resets that recover from one. -/

namespace Sys2Proof.Machine

/-! ## Byte storage -/

/-- The byte stored at an address; none where nothing has been written. -/
def Memory.read? : Mem → Nat → Option Byte
  | [], _ => none
  | (k, v) :: m, a => if a = k then some v else Memory.read? m a

/-- Bytes placed at consecutive addresses. -/
def Memory.cells (a : Nat) : List Byte → Mem
  | [] => []
  | b :: bs => (a, b) :: Memory.cells (a + 1) bs

/-- Stores bytes at consecutive addresses from `a`, replacing what was there. -/
def Memory.write (m : Mem) (a : Nat) (bs : List Byte) : Mem :=
  m.filter (fun c => c.1 < a) ++ Memory.cells a bs ++ m.filter (fun c => a + bs.length ≤ c.1)

/-- The canonical form: addresses strictly rising. Every listed byte is a value and an unlisted one is "never written", so no
entry equals what an unlisted address reads as. -/
def Memory.wf : Mem → Bool
  | [] => true
  | c :: m => (match m with | [] => true | d :: _ => c.1 < d.1) && Memory.wf m

/-! ## The block-local address map (spec/20_memory.md R101) -/

/-- R101: the first byte of HDRBUF. -/
def hdrBase : Nat := 0x1000

/-- R101: the first byte of ROWTAB. -/
def rowtabBase : Nat := 0x2000

/-- R101: the first byte of `AUD_k`. -/
def audBase (k : Fin 2) : Nat := 0x100000 * (k.val + 1)

/-- R101: the first byte of RING. -/
def ringBase : Nat := 0x1000000

/-- spec/30_encoding.md R169: `DISCARD`. -/
def discard : Word := 0xFFFFFFFF

/-- A byte of HDRBUF, AUD0, AUD1 or RING: what was last stored there, or the unspecified power-on content
(spec/70_reset_and_hazards.md R550; log 4). -/
def State.bufByte (s : State) (a : Nat) : Byte := (Memory.read? s.mem a).getD (Config.powerOnByte a)

/-- R104: the little-endian word of a buffer at an address. -/
def State.bufWord (s : State) (a : Nat) : Word := le32 (fun i => s.bufByte (a + i)) 0

/-- Byte `i` of HDRBUF. -/
def State.hdrByte (s : State) (i : Nat) : Byte := s.bufByte (hdrBase + i)

/-- R46: `RT[i]` (an entry outside the table is free: log 12). -/
def State.rowOffset (s : State) (i : Nat) : Word := s.rt.getD i (Config.outside i)

/-- spec/10_state.md R43: `S.hdr.ro[r]` (outside the table free: log 12). -/
def Header.roAt (h : Header) (r : Nat) : Nat := (h.ro.getD r ((Config.outside r).setWidth 16)).toNat

/-- spec/30_encoding.md R161: `S.hdr.link[i]` (outside the table free: log 12). -/
def Header.linkAt (h : Header) (i : Nat) : Word := h.link[i]?.getD (Config.outside i)

/-- R40: entry `i` of the stream table (outside the table free: log 12). -/
def StreamState.entry (t : StreamState) (i : Nat) : Stream :=
  t.table[i]?.getD { base := Config.outside i, len := Config.outside i }

/-! ## Parts of the state named by a number or a role -/

/-- R54: `slot[k]`. -/
def State.slot (s : State) (k : Fin 2) : AudioSlot := if k = 0 then s.slot0 else s.slot1

/-- Replaces `slot[k]`. -/
def State.setSlot (s : State) (k : Fin 2) (v : AudioSlot) : State :=
  { s with slot0 := if k = 0 then v else s.slot0, slot1 := if k = 0 then s.slot1 else v }

/-- R53: `S.pos[c] <- t`. -/
def State.setPos (s : State) (c : Fin 2) (t : Half) : State :=
  { s with dsp.pos0 := if c = 0 then t else s.dsp.pos0, dsp.pos1 := if c = 0 then s.dsp.pos1 else t }

/-- R52: the decode frame record `F`. -/
def State.frame (s : State) : FrameRec := if s.decShown then s.disp else s.next

/-- R52: writes through `F`. -/
def State.setFrame (s : State) (f : FrameRec) : State :=
  { s with disp := if s.decShown then f else s.disp, next := if s.decShown then s.next else f }

/-- `S.state <- st`. -/
def State.goto (s : State) (st : DecState) : State := { s with fsm.state := st }

/-- spec/00_scope.md R25: `Emit(ev)`. -/
def State.emit (s : State) (o : Output) : State := { s with env.emitted := o :: s.env.emitted }

/-- spec/30_encoding.md R157: the response to the consumer that issued the word. -/
def State.respond (s : State) (w : Word) : State := s.emit (.response s.env.caller w)

/-! ## Taking an event and recovering from it (spec/60_exceptions.md) -/

/-- R500: `raise E(sub)`. -/
def State.raise (s : State) (e : Event) : State := { s with ev := e.record s.ev }

/-- R505: what a desync reset leaves of an audio slot: a given one is kept. -/
def AudioSlot.afterDesync (v : AudioSlot) : AudioSlot := if v.given then v else AudioSlot.none

/-- spec/70_reset_and_hazards.md R561: neither reset cancels a read in flight; it is kept, and stale from then on (log 26). -/
def Dma.afterReset (d : Dma) : Dma := { d with stale := d.busy }

/-- R505: `DesyncReset(c)`. A read in flight, the controls, the stream selection, the counters and the buffers are kept. -/
def State.desyncReset (s : State) (c : Event) : State :=
  { s with
    ev := c.record { s.ev with desyncCount := s.ev.desyncCount + 1 }
    fsm := { s.fsm with state := .init, initPhase := false }
    win := { validFrom := 0, validTo := 0, displayStart := 0, plannedTo := 0 }
    cur := { s.cur with writeOff := 0, frameRingBase := 0, fetchSec := 0, doneWords := 0, rowsPlanned := 0 }
    rt := List.replicate s.cfg.rowSlots 0
    hdrValid := false
    next := FrameRec.none
    disp := FrameRec.none
    decShown := false
    dsp := { showing := false, armed := false, holdCtr := 0, pos0 := 0, pos1 := 0 }
    slot0 := s.slot0.afterDesync
    slot1 := s.slot1.afterDesync
    dma := s.dma.afterReset
    ovr := { s.ovr with valid := false }
    ctl := { s.ctl with stepPending := false }
    seq := { curSector := 0, nextSector := 0, searchCtr := 0, terminal := false } }

/-- spec/70_reset_and_hazards.md R551: the soft reset. `S.dma_busy`, `S.req` and the buffers are kept (and with them what
belongs to the run, not to the block: parameters, storage, the environment). -/
def State.softReset (s : State) : State :=
  { State.powerOn s.cfg with disk := s.disk, dma := s.dma.afterReset, mem := s.mem, env := s.env }

end Sys2Proof.Machine
end

