-- ==== Sys2Proof/Machine/Storage.lean ====
section
/-! DEFINITION. The storage port: issuing a read, STOR landing its words and completing it (spec/20_memory.md R109 to R119). -/

namespace Sys2Proof.Machine

/-- R110: `Issue(req)`: `S.req <- req; S.dma_busy <- 1`, nothing of it landed yet. -/
def State.issue (s : State) (lba : Word) (count : Nat) (frags : List Frag) : State :=
  { s with
    dma := { busy := true, req := { lba := lba, count := BitVec.ofNat 16 count, frags := frags }, landed := 0, stale := false } }

/-- R109: a byte of the storage device, by 512 times the sector plus the offset. -/
def State.diskByte (s : State) (a : Nat) : Byte := (Memory.read? s.disk a).getD (Config.storageByte a)

/-- R112: byte `i` of the concatenated sectors `lba, lba + 1, ...` (sector numbers are 32 bits). -/
def State.sectorByte (s : State) (lba : Word) (i : Nat) : Byte :=
  s.diskByte (512 * ((lba.toNat + i / 512) % 2 ^ 32) + i % 512)

/-- R112: lands the words with numbers in `[lo, hi)` of a request, `src` being the bytes of its data. The fragments from here on hold
the words from number `w`; a `DISCARD` fragment's words go nowhere. -/
def landWords (src : Nat → Byte) (lo hi : Nat) : List Frag → Nat → Mem → Mem
  | [], _, m => m
  | f :: fs, w, m =>
    landWords src lo hi fs (w + f.words)
      (if f.dest = discard ∨ min hi (w + f.words) ≤ max lo w then m
       else Memory.write m (f.dest.toNat + 4 * (max lo w - w))
              ((List.range (4 * (min hi (w + f.words) - max lo w))).map fun j => src (4 * max lo w + j)))

/-- R112: how many words a request moves. -/
def Request.words (r : Request) : Nat := 128 * r.count.toNat

/-- R112: one part of STOR's landing, up to `n` further words. STOR has no step while `S.dma_busy = 0`. -/
def State.storLand (s : State) (n : Nat) : State :=
  if s.dma.busy then
    { s with
      mem := landWords (s.sectorByte s.dma.req.lba) s.dma.landed (min (s.dma.landed + n) s.dma.req.words) s.dma.req.frags 0
        s.mem
      dma.landed := min (s.dma.landed + n) s.dma.req.words }
  else s

/-- spec/93_implementation_defined.md I19 ("`any value` for the landed words"): what a read left in flight by a reset leaves at its
destinations is unspecified, here fresh free bytes (log 26). -/
def State.leaveStale (s : State) : State :=
  { s with
    mem := landWords (fun i => Config.freeByte (s.env.draws + i)) 0 s.dma.req.words s.dma.req.frags 0 s.mem
    env.draws := s.env.draws + 4 * s.dma.req.words }

/-- R112: STOR's last step, "taken only after every word has been written, is the completion: `S.dma_busy <- 0`". -/
def State.storComplete (s : State) : State :=
  if s.dma.busy && s.dma.landed == s.dma.req.words then
    { (if s.dma.stale then s.leaveStale else s) with dma := { s.dma with busy := false, stale := false } }
  else s

/-- R118: a byte of a word that the outstanding read writes. -/
def State.inFlight (s : State) (a : Nat) : Bool :=
  s.dma.busy && s.dma.req.frags.any fun f => f.dest != discard && f.dest.toNat ≤ a && a < f.dest.toNat + 4 * f.words

/-- spec/30_encoding.md R170: a request stored as words. -/
def Request.toWords (r : Request) : List Word :=
  r.lba :: BitVec.ofNat 32 (r.count.toNat + r.frags.length * 2 ^ 16)
    :: r.frags.flatMap fun f => [f.dest, BitVec.ofNat 32 f.words]

end Sys2Proof.Machine
end

