-- ==== Sys2Proof/Machine/Planner.lean ====
section
/-! DEFINITION. The scatter-gather read planner and its completion (spec/42_sg_planner.md). -/

namespace Sys2Proof.Machine

/-- R354: how many rows of the frame start before image word `w`. -/
def State.rowsBefore (s : State) (w : Nat) : Nat :=
  (List.range s.cfg.rows).countP fun r => s.hdr.roAt r < w

/-- R360: how many rows of the frame end at or before image word `w`. -/
def State.rowsDone (s : State) (w : Nat) : Nat :=
  (List.range s.cfg.rows).countP fun r => s.hdr.roAt (r + 1) ≤ w

/-- R353, spec/10_state.md R51: the ring word a slot's row begins at; the slot after the last assigned one begins where the next image
word lands. -/
def State.rowStart (s : State) (slot : Nat) : Nat :=
  if slot ≠ s.win.plannedTo.toNat then (s.rowOffset slot).toNat / 4 else s.cur.writeOff.toNat

/-- R353, spec/10_state.md R51: the do-not-overwrite boundary, a ring word offset. -/
def State.keepOff (s : State) : Nat := s.rowStart s.win.validFrom.toNat

/-- R353: the ring words a batch may fill. -/
def State.freeWords (s : State) : Nat :=
  s.cfg.ringWords - 1 - distN s.cfg.ringWords s.keepOff s.cur.writeOff.toNat

/-- R351: the slots a batch may assign. -/
def State.freeSlots (s : State) : Nat :=
  s.cfg.rowSlots - 1 - distN s.cfg.rowSlots s.win.validFrom.toNat s.win.plannedTo.toNat

/-- R350: the payload words of sector `j` of the frame. -/
def State.payload (s : State) (j : Nat) : Nat := min (128 * j + 128) s.cur.imgWords.toNat - 128 * j

/-- The variables of `Plan`'s loop (R355); fragments in order. -/
structure PlanAcc where
  k : Nat
  need : Nat
  wo : Nat
  rp : Nat
  frags : List Frag
deriving DecidableEq, Repr

/-- A fragment in RING from ring word `wo`. -/
def ringFrag (wo words : Nat) : Frag := { dest := BitVec.ofNat 32 (ringBase + 4 * wo), words := words }

/-- R355: the fragments of one sector with `n` payload words landing at ring word `wo`: split at the ring end, the padding of
the last sector discarded. -/
def sectorFrags (rw wo n : Nat) : List Frag :=
  (if wo + n ≤ rw then [ringFrag wo n] else [ringFrag wo (rw - wo), ringFrag 0 (n - (rw - wo))])
    ++ (if n < 128 then [{ dest := discard, words := 128 - n }] else [])

/-- R355: `Plan`'s loop; the first argument counts the sectors the batch may still take (the batch size limit). -/
def State.planLoop (s : State) (free sfree : Nat) : Nat → PlanAcc → PlanAcc
  | 0, acc => acc
  | fuel + 1, acc =>
    let j := s.cur.fetchSec.toNat + acc.k
    let n := s.payload j
    let rp2 := s.rowsBefore (128 * j + n)
    if j = s.cur.imgSectors.toNat then acc
    else if acc.need + n > free then acc
    else if rp2 - s.cur.rowsPlanned.toNat > sfree then acc
    else
      let acc' : PlanAcc :=
        { k := acc.k + 1, need := acc.need + n, wo := (acc.wo + n) % s.cfg.ringWords, rp := rp2
          frags := acc.frags ++ sectorFrags s.cfg.ringWords acc.wo n }
      if acc.wo + n ≥ s.cfg.ringWords then acc' else s.planLoop free sfree fuel acc'

/-- R355: a fragment in RING. -/
def Frag.inRing (p : Params) (f : Frag) : Bool := ringBase ≤ f.dest.toNat && f.dest.toNat < ringBase + 4 * p.ringWords

/-- R355: `merge` joins neighbouring RING fragments when the second starts at the byte after the first ends. -/
def mergeFrags (p : Params) : List Frag → List Frag
  | [] => []
  | f :: fs =>
    match mergeFrags p fs with
    | [] => [f]
    | g :: gs =>
      if f.inRing p && g.inRing p && f.dest.toNat + 4 * f.words == g.dest.toNat then
        { dest := f.dest, words := f.words + g.words } :: gs
      else f :: g :: gs

/-- R355: `Plan()`: the batch, with its merged fragment list. It changes no state. -/
def State.plan (s : State) : PlanAcc :=
  let acc := s.planLoop s.freeWords s.freeSlots s.cfg.maxBatchSectors
    { k := 0, need := 0, wo := s.cur.writeOff.toNat, rp := s.cur.rowsPlanned.toNat, frags := [] }
  { acc with frags := mergeFrags s.cfg acc.frags }

/-- R356: `RT[add_NS(S.next.start_slot, r)] <- 4 * add_RW(S.frame_ring_base, S.hdr.ro[r])`. -/
def State.commitRow (s : State) (rt : List Word) (r : Nat) : List Word :=
  rt.set (addN s.cfg.rowSlots s.next.startSlot.toNat r)
    (BitVec.ofNat 32 (4 * addN s.cfg.ringWords s.cur.frameRingBase.toNat (s.hdr.roAt r)))

/-- R356: `Commit(k, wo, rp)`. -/
def State.commit (s : State) (b : PlanAcc) : State :=
  { s with
    rt := (List.range' s.cur.rowsPlanned.toNat (b.rp - s.cur.rowsPlanned.toNat)).foldl s.commitRow s.rt
    win.plannedTo := BitVec.ofNat 16
      (addN s.cfg.rowSlots s.win.plannedTo.toNat (b.rp - s.cur.rowsPlanned.toNat))
    cur.rowsPlanned := BitVec.ofNat 16 b.rp
    cur.writeOff := BitVec.ofNat 32 b.wo
    cur.fetchSec := BitVec.ofNat 16 (s.cur.fetchSec.toNat + b.k) }

/-- R357: the device sector of the batch: `(S.stream_base_cur + S.img_sector0 + f0) mod 2^32`. -/
def State.batchLba (s : State) : Word := s.strm.baseCur + s.cur.imgSector0 + s.cur.fetchSec.setWidth 32

/-- spec/41_decoder_fsm.md R287 with R355 to R357: plan, and, unless the batch is empty (a deferral), commit and issue it. -/
def State.planAndIssue (s : State) : Option State :=
  if s.plan.k = 0 then none
  else some ((s.commit s.plan).issue s.batchLba s.plan.k s.plan.frags)

/-- R360: `Complete()`. -/
def State.complete (s : State) : State :=
  let done := min (128 * s.cur.fetchSec.toNat) s.cur.imgWords.toNat
  { s with
    cur.doneWords := BitVec.ofNat 32 done
    win.validTo := BitVec.ofNat 16 (addN s.cfg.rowSlots s.next.startSlot.toNat (s.rowsDone done)) }

end Sys2Proof.Machine
end

