-- ==== Sys2Proof/Machine/Bus.lean ====
section
/-! DEFINITION. The control registers and bus reads (spec/10_state.md section 12; spec/20_memory.md R101 to R108;
spec/40_commands.md R241, R242). -/

namespace Sys2Proof.Machine

/-- R57 to R69: what a read of CSR offset `off` (a multiple of 4) returns; `CMD` and reserved offsets read 0. -/
def State.readReg (s : State) (off : Nat) : Word :=
  match off with
  | 0x00 => 0x56444543
  | 0x04 => BitVec.ofNat 32 (flagAt s.fsm.en 0)
  | 0x08 => statusWord s
  | 0x10 => s.ctl.speed.setWidth 32
  | 0x14 => s.ctl.volume.setWidth 32
  | 0x18 => halves s.win.validFrom s.win.validTo
  | 0x1C => halves s.win.displayStart s.win.plannedTo
  | 0x20 => s.seq.curSector
  | 0x24 => s.seq.nextSector
  | 0x28 => s.ovr.sector
  | 0x2C => BitVec.ofNat 32 (s.strm.sel.toNat + s.strm.count.toNat * 2 ^ 8 + s.ovr.stream.toNat * 2 ^ 16)
  | 0x30 => s.disp.frameNumber
  | 0x34 => s.disp.timestamp
  | 0x38 => BitVec.ofNat 32 (s.ev.cause.toNat + s.ev.subcause.toNat * 2 ^ 8)
  | 0x3C => s.ev.desyncCount
  | 0x40 => s.ev.fmtErrCount
  | 0x44 => s.ev.irqStatus.setWidth 32
  | 0x48 => s.ev.irqEnable.setWidth 32
  | 0x4C => s.cur.writeOff
  | 0x50 => halves s.cur.fetchSec s.cur.rowsPlanned
  | 0x54 => halves s.dsp.pos0 s.dsp.pos1
  | 0x58 => s.dsp.holdCtr.setWidth 32
  | 0x5C => s.seq.searchCtr
  | _ => 0

/-- R241: a write of a register other than `CMD`; read-only and reserved offsets ignore it. -/
def State.writeReg (s : State) (off : Nat) (v : Word) : State :=
  match off with
  | 0x04 => if v.getLsbD 1 then s.softReset else { s with fsm.en := v.getLsbD 0 }
  | 0x14 => { s with ctl.volume := v.setWidth 8 }
  | 0x44 => { s with ev.irqStatus := s.ev.irqStatus &&& ~~~(v.setWidth 6) }
  | 0x48 => { s with ev.irqEnable := v.setWidth 6 }
  | _ => s

/-- R101: the regions of the block-local space. -/
inductive Region where
  | csr
  | hdrbuf
  | rowtab
  | aud (k : Fin 2)
  | ring
deriving DecidableEq, Repr

/-- R101: the region an address lies in; none where nothing is mapped. -/
def regionOf (p : Params) (a : Nat) : Option Region :=
  if a < 0x100 then some .csr
  else if hdrBase ≤ a ∧ a < hdrBase + 512 then some .hdrbuf
  else if rowtabBase ≤ a ∧ a < rowtabBase + 4 * p.rowSlots then some .rowtab
  else if audBase 0 ≤ a ∧ a < audBase 0 + 4 * p.audioSlotWords then some (.aud 0)
  else if audBase 1 ≤ a ∧ a < audBase 1 + 4 * p.audioSlotWords then some (.aud 1)
  else if ringBase ≤ a ∧ a < ringBase + 4 * p.ringWords then some .ring
  else none

/-- spec/20_memory.md R123, spec/43_display_sync.md R404: where a consumer reads word `k` of the row at byte offset `off`. -/
def rowWordAddr (p : Params) (off : Word) (k : Nat) : Nat := ringBase + (off.toNat + 4 * k) % (4 * p.ringWords)

/-- R102: what an agent may read: AUD only a buffer it has been given (elsewhere it gets a bus error: log 10). -/
def State.mayRead (s : State) (r : Reader) (region : Region) : Bool :=
  match r with
  | .host => true
  | .disp0 => true
  | .disp1 => true
  | .aud =>
    match region with
    | .aud k => (s.slot k).given
    | _ => false

/-- R105, R106: the widths a region accepts. -/
def widthOk (region : Region) (size : Nat) : Bool :=
  match region with
  | .csr => size == 4
  | _ => size == 1 || size == 2 || size == 4

/-- R105 to R107: the region of an accepted read; none for a refused one. -/
def State.readAccepted (s : State) (r : Reader) (addr : Word) (size : Nat) : Option Region :=
  match regionOf s.cfg addr.toNat with
  | none => none
  | some region =>
    if widthOk region size && addr.toNat % size == 0 && s.mayRead r region then some region else none

/-- spec/70_reset_and_hazards.md R562: a display consumer. -/
def isConsumer : Reader → Bool
  | .disp0 => true
  | .disp1 => true
  | .host => false
  | .aud => false

/-- R123: a ring word of a row in the valid window. Rows lie one after the other (spec/42_sg_planner.md R350), so these are the words
from the start of the first row of the window to the start of the row after it (log 24). -/
def State.ringWordValid (s : State) (w : Nat) : Bool :=
  s.win.validFrom != s.win.validTo
    && inWindowN s.cfg.ringWords (s.rowStart s.win.validFrom.toNat) (s.rowStart s.win.validTo.toNat) w

/-- Which bytes of the buffers read as any value: those of a word in flight (R118; log 5) and, for a display consumer, those of RING
outside the valid window (spec/70_reset_and_hazards.md R562, spec/93_implementation_defined.md I16; log 24). -/
def State.unspecified (s : State) (r : Reader) (a : Nat) : Bool :=
  s.inFlight a || (isConsumer r && ringBase ≤ a && !s.ringWordValid ((a - ringBase) / 4))

/-- A byte a bus read of a buffer sees: a free value, drawn afresh, where it is unspecified; else what was last stored there. -/
def State.busByte (s : State) (r : Reader) (a draw : Nat) : Byte :=
  if s.unspecified r a then Config.freeByte draw else s.bufByte a

/-- R101: ROWTAB shows `RT[i]` at 0x2000 + 4i, little-endian. -/
def State.rowtabByte (s : State) (off : Nat) : Byte := byteOfWord (s.rowOffset (off / 4)) (off % 4)

/-- R104: the value an accepted read returns. -/
def State.readValue (s : State) (r : Reader) (region : Region) (a size : Nat) : Word :=
  match region with
  | .csr => s.readReg a
  | .rowtab => BitVec.ofNat 32 (valueOfBytes ((List.range size).map fun i => s.rowtabByte (a - rowtabBase + i)))
  | .hdrbuf => BitVec.ofNat 32 (valueOfBytes ((List.range size).map fun i => s.busByte r (a + i) (s.env.draws + i)))
  | .aud _ => BitVec.ofNat 32 (valueOfBytes ((List.range size).map fun i => s.busByte r (a + i) (s.env.draws + i)))
  | .ring => BitVec.ofNat 32 (valueOfBytes ((List.range size).map fun i => s.busByte r (a + i) (s.env.draws + i)))

/-- R101: the regions that are byte storage; CSR and ROWTAB are views of the registers and of `RT`. -/
def Region.isBuffer : Region → Bool
  | .csr => false
  | .rowtab => false
  | .hdrbuf => true
  | .aud _ => true
  | .ring => true

/-- How many free bytes a read of `size` bytes at `a` draws. -/
def State.drawn (s : State) (r : Reader) (region : Region) (a size : Nat) : Nat :=
  if region.isBuffer && (List.range size).any (fun i => s.unspecified r (a + i)) then size else 0

/-- A bus read (R105 to R108): the value, or the bus error of R107; nothing of the block changes. -/
def State.busRead (s : State) (r : Reader) (addr : Word) (size : Nat) : State :=
  match s.readAccepted r addr size with
  | none => s.emit (.readData r 0 true)
  | some region =>
    State.emit { s with env.draws := s.env.draws + s.drawn r region addr.toNat size }
      (.readData r (s.readValue r region addr.toNat size) false)

/-- R106, R107: whether a HOST write is accepted: 4 bytes, aligned, in CSR. -/
def writeAccepted (addr : Word) (size : Nat) : Bool := size == 4 && addr.toNat % 4 == 0 && addr.toNat < 0x100

end Sys2Proof.Machine
end

