-- ==== Sys2Proof/Machine/Audio.lean ====
section
/-! DEFINITION. The audio double buffer: post-processing, handoff and return (spec/44_audio.md). -/

namespace Sys2Proof.Machine

/-- R451: the 128 words of sector `i` of a buffer. -/
def sectorOf (ws : List Word) (i : Nat) : List Word := (ws.drop (128 * i)).take 128

/-- R451: writes the words of sector `i` back. -/
def putSector (ws : List Word) (i : Nat) (x : List Word) : List Word :=
  ws.take (128 * i) ++ x ++ ws.drop (128 * i + 128)

/-- R451: the pass over the sector pair `(i, n - 1 - i)`. -/
def processPair (rev : Bool) (g : BitVec 8) (n : Nat) (ws : List Word) (i : Nat) : List Word :=
  let x := sectorOf ws i
  let y := sectorOf ws (n - 1 - i)
  let x' := (if rev then y.reverse else x).map (gainWord g)
  let y' := (if rev then x.reverse else y).map (gainWord g)
  if i = n - 1 - i then putSector ws i x' else putSector (putSector ws i x') (n - 1 - i) y'

/-- R451: the pass over a buffer of `n` sectors, skipped when playing forward at unity gain. -/
def processWords (rev : Bool) (g : BitVec 8) (n : Nat) (ws : List Word) : List Word :=
  if !rev && g == 255 then ws else (List.range ((n + 1) / 2)).foldl (processPair rev g n) ws

/-- The first `n` words of a buffer at `base`. -/
def State.bufWords (s : State) (base n : Nat) : List Word := (List.range n).map fun i => s.bufWord (base + 4 * i)

/-- R451: `PostProcess(k)` on the whole sectors of the slot's words. -/
def State.postProcess (s : State) (k : Fin 2) : State :=
  if !s.frame.dir && s.ctl.volume == 255 then s
  else
    { s with
      mem := Memory.write s.mem (audBase k)
        ((processWords s.frame.dir s.ctl.volume ((s.slot k).words.toNat / 128)
          (s.bufWords (audBase k) (128 * ((s.slot k).words.toNat / 128)))).flatMap wordBytes) }

/-- R454: the condition of `TryHandoff(k)`. -/
def AudioSlot.eligible (v : AudioSlot) : Bool := v.state == .queued && v.shown && !v.given

/-- R454: `TryHandoff(k)`: nothing, the silent discard of R455, or `Give(k, addr, words)`. -/
def State.tryHandoff (s : State) (k : Fin 2) : State :=
  if (s.slot k).eligible then
    if s.ctl.paused || !(s.slot k).audible then s.setSlot k { s.slot k with state := .empty, shown := false }
    else
      (s.setSlot k { s.slot k with given := true }).emit
        (.give k (BitVec.ofNat 32 (audBase k)) (s.slot k).words)
  else s

/-- R456: `a.done k`. -/
def execADone (sel : Byte) (s : State) : Host.Outcome State Fault Refusal :=
  .next <|
    if (s.slot (unitOf sel)).given then
      s.setSlot (unitOf sel) { s.slot (unitOf sel) with given := false, shown := false, state := .empty }
    else s.raise (.illegalOp 4)

end Sys2Proof.Machine
end

