-- ==== Sys2Proof/Machine/Decoder.lean ====
section
/-! DEFINITION. The decoder state machine (spec/41_decoder_fsm.md): one definition per state, each the DEC step taken in it, `none`
for a hold (spec/00_scope.md R8). -/

namespace Sys2Proof.Machine

/-! ## The stream directory (spec/30_encoding.md R175, R176) -/

/-- R175: entry `i` of a PC-style partition table, as a list of at most one stream. -/
def mbrEntry (b : Nat → Byte) (i : Nat) : List Stream :=
  if b (0x1BE + 16 * i + 4) != 0 && le32 b (0x1BE + 16 * i + 12) != 0 then
    [{ base := le32 b (0x1BE + 16 * i + 8), len := le32 b (0x1BE + 16 * i + 12) }]
  else []

/-- R175, R176: the default `P_DIRECTORY`. -/
def mbrDirectory (p : Params) (b : Nat → Byte) : List Stream :=
  if b 510 == 0x55 && b 511 == 0xAA then mbrEntry b 0 ++ mbrEntry b 1 ++ mbrEntry b 2 ++ mbrEntry b 3
  else [{ base := 0, len := p.deviceSectors }]

/-- spec/00_scope.md R20: `P_DIRECTORY` of HDRBUF. -/
def State.directory (s : State) : List Stream :=
  match s.cfg.directory with
  | .mbr => mbrDirectory s.cfg s.hdrByte
  | .other => Config.otherDirectory ((List.range 512).map s.hdrByte)

/-- R280: the streams INIT takes: the first 4 entries, where "a stream the directory lists with length 0 is not a stream"
(log 14). -/
def State.foundStreams (s : State) : List Stream :=
  (s.directory.filter fun e => e.len != 0).take Config.maxStreams

/-! ## The header (spec/30_encoding.md R160) -/

/-- R160: the header fields of a 512-byte sector. -/
def parseHeader (p : Params) (b : Nat → Byte) : Header :=
  { sector := le32 b 0x004
    frameNumber := le32 b 0x008
    timestamp := le32 b 0x00C
    width := le16 b 0x010
    height := le16 b 0x012
    imageWords := le32 b 0x014
    audioWords := le32 b 0x018
    audioFreq := le32 b 0x01C
    audioChannels := le16 b 0x020
    headerBytes := le16 b 0x022
    totalSectors := le32 b 0x024
    lastFrameSector := le32 b 0x028
    link := #v[le32 b 0x02C, le32 b 0x030, le32 b 0x034, le32 b 0x038,
               le32 b 0x03C, le32 b 0x040, le32 b 0x044, le32 b 0x048]
    ro := (List.range (p.rows + 1)).map fun r => le16 b (0x050 + 2 * r) }

/-- R285, check 7 (spec/30_encoding.md R162): the row-offset table. -/
def rowTableOk (p : Params) (h : Header) : Bool :=
  h.roAt 0 == 0 && (List.range p.rows).all (fun r => h.roAt r < h.roAt (r + 1)) && h.roAt p.rows == h.imageWords.toNat

/-- R285: the subcause of the first check that fails; none for a valid header. -/
def validate (p : Params) (cur : Word) (b : Nat → Byte) : Option Nat :=
  let h := parseHeader p b
  if le32 b 0x000 != p.magic0 then some 1
  else if le32 b 0x04C != p.magic1 then some 2
  else if h.headerBytes.toNat != 0x50 + 2 * (p.rows + 1) then some 3
  else if h.sector != cur then some 4
  else if h.width.toNat != p.width || h.height.toNat != p.height then some 5
  else if h.imageWords.toNat == 0 || h.imageWords.toNat > p.ringWords - 1 then some 6
  else if !rowTableOk p h then some 7
  else if h.audioWords.toNat % 128 != 0 || h.audioWords.toNat > p.audioSlotWords then some 8
  else none

/-- R284: header acceptance. -/
def State.accept (s : State) : State :=
  let h := parseHeader s.cfg s.hdrByte
  { s with
    hdr := h
    hdrValid := true
    seq.searchCtr := 0
    next := { valid := true, ready := false, startSlot := s.win.plannedTo, sector := s.seq.curSector,
              frameNumber := h.frameNumber, timestamp := h.timestamp, speed := s.ctl.speed, dir := s.ctl.dir,
              aslot := Option.none }
    decShown := false }

/-- R297: the search counter has reached the stream's length with this rejection. -/
def State.searchExhausted (s : State) : Bool := s.strm.lenCur.toNat ≤ s.seq.searchCtr.toNat + 1

/-- R297: `FormatError(v)`. -/
def State.formatError (s : State) (v : Nat) : State :=
  let counted : State :=
    { s with ev.fmtErrCount := s.ev.fmtErrCount + 1, seq.searchCtr := s.seq.searchCtr + 1 }
  let raised := counted.raise (.format v)
  let ended : State :=
    if s.searchExhausted then State.raise { raised with seq.terminal := true } .terminalSearch else raised
  ended.goto .error

/-! ## The steps -/

/-- R280: what INIT does with the parsed directory. -/
def State.adopt (s : State) (found : List Stream) : State :=
  let s1 : State :=
    { s with
      fsm.initPhase := false
      ovr.valid := false
      ctl.stepPending := false
      hdrValid := false
      seq.searchCtr := 0
      seq.terminal := false }
  if found = [] then
    State.goto { State.raise { s1 with strm.count := 0 } .noStream with seq.terminal := true } .error
  else
    let table : Vector Stream 4 :=
      #v[found.getD 0 s.strm.table[0], found.getD 1 s.strm.table[1],
         found.getD 2 s.strm.table[2], found.getD 3 s.strm.table[3]]
    let sel : BitVec 8 := if s.strm.sel.toNat ≥ found.length then 0 else s.strm.sel
    let current := ({ s.strm with table := table } : StreamState).entry sel.toNat
    State.goto
      { s1 with
        strm := { count := BitVec.ofNat 8 found.length, table := table, sel := sel,
                  baseCur := current.base, lenCur := current.len }
        seq.curSector := 0
        seq.nextSector := 0 } .newFrame

/-- R280. -/
def decInit (s : State) : Option State :=
  if s.dma.busy then none
  else if s.fsm.initPhase then some (s.adopt s.foundStreams)
  else some (State.issue { s with fsm.initPhase := true } 0 1 [{ dest := BitVec.ofNat 32 hdrBase, words := 128 }])

/-- R281: the override makes its stream current. -/
def StreamState.switchTo (t : StreamState) (k : BitVec 8) : StreamState :=
  if k = t.sel then t
  else { t with sel := k, baseCur := (t.entry k.toNat).base, lenCur := (t.entry k.toNat).len }

/-- R281. -/
def decNewFrame (s : State) : Option State :=
  if s.next.valid then none
  else if s.ovr.valid then
    some (State.goto
      { s with
        strm := s.strm.switchTo s.ovr.stream
        seq.curSector := s.ovr.sector
        seq.searchCtr := 0
        ovr.valid := false } .needHeader)
  else some (State.goto { s with seq.curSector := s.seq.nextSector } .needHeader)

/-- R282 (an issue with a read outstanding cannot happen, R298; it would wait: log 13). -/
def decNeedHeader (s : State) : Option State :=
  if s.dma.busy then none
  else some ((s.issue (s.strm.baseCur + s.seq.curSector) 1 [{ dest := BitVec.ofNat 32 hdrBase, words := 128 }]).goto
    .readingHeader)

/-- R283. -/
def decReadingHeader (s : State) : Option State :=
  if s.dma.busy then none
  else
    match validate s.cfg s.seq.curSector s.hdrByte with
    | none => some (s.accept.goto .needVideo)
    | some v => some (s.formatError v)

/-- R286. -/
def decNeedVideo (s : State) : Option State :=
  some (State.goto
    { s with
      cur := { imgSector0 := s.seq.curSector + 1 + BitVec.ofNat 32 (s.hdr.audioWords.toNat / 128)
               imgWords := s.hdr.imageWords
               imgSectors := BitVec.ofNat 16 ((s.hdr.imageWords.toNat + 127) / 128)
               fetchSec := 0
               doneWords := 0
               rowsPlanned := 0
               frameRingBase := s.cur.writeOff
               writeOff := s.cur.writeOff } } .preppingVideo)

/-- R287. -/
def decPreppingVideo (s : State) : Option State :=
  if s.dma.busy then none else s.planAndIssue.map fun t => t.goto .readingVideo

/-- R288: where READING_VIDEO goes. -/
def State.afterVideo (s : State) : DecState :=
  if s.cur.fetchSec.toNat < s.cur.imgSectors.toNat then .preppingVideo
  else if s.hdr.audioWords.toNat > 0 then .awaitAudioBuffer
  else .audioReady

/-- R288. -/
def decReadingVideo (s : State) : Option State :=
  if s.dma.busy then none else some (s.complete.goto s.afterVideo)

/-- R289: the lowest Empty slot. -/
def State.emptySlot (s : State) : Option (Fin 2) :=
  if s.slot0.state = .empty then some 0 else if s.slot1.state = .empty then some 1 else none

/-- R289, spec/44_audio.md R450. -/
def decAwaitAudioBuffer (s : State) : Option State :=
  s.emptySlot.map fun k =>
    State.goto
      ((s.setSlot k { state := .filling, given := false, shown := s.decShown, audible := s.frame.speed == 0,
                      words := s.hdr.audioWords }).setFrame { s.frame with aslot := some k }) .needAudio

/-- R290 (a frame without a slot, or a read outstanding, cannot reach this state; it would wait: log 13). -/
def decNeedAudio (s : State) : Option State :=
  match s.frame.aslot with
  | none => none
  | some k =>
    if s.dma.busy then none
    else
      some ((s.issue (s.strm.baseCur + s.seq.curSector + 1) (s.hdr.audioWords.toNat / 128)
        [{ dest := BitVec.ofNat 32 (audBase k), words := s.hdr.audioWords.toNat }]).goto .readingAudio)

/-- R291. -/
def decReadingAudio (s : State) : Option State :=
  if s.dma.busy then none else some (s.goto .postProcessAudio)

/-- R292 (a frame without a slot cannot reach this state; it would wait: log 13). -/
def decPostProcessAudio (s : State) : Option State :=
  match s.frame.aslot with
  | none => none
  | some k =>
    let processed := s.postProcess k
    some (((processed.setSlot k { processed.slot k with state := .queued }).tryHandoff k).goto .audioReady)

/-- R294. -/
def decAudioReady (s : State) : Option State := some (s.goto .frameReady)

/-- R293: trick-play frame selection. -/
def decFrameReady (s : State) : Option State :=
  let s1 := s.setFrame { s.frame with ready := true }
  let tgt := s.hdr.linkAt (linkIndex s.ctl.speed s.ctl.dir)
  if tgt = absentLink then
    some (State.goto { s1 with seq.nextSector := if s.ctl.dir then s.hdr.lastFrameSector else 0 } .hitEnd)
  else some (State.goto { s1 with seq.nextSector := tgt } .newFrame)

/-- R295. -/
def decHitEnd (s : State) : Option State := some ((s.raise .hitEnd).goto .newFrame)

/-- R296: `(S.cur_sector + 1) mod S.stream_len_cur` (a length 0 cannot be: log 12). -/
def State.searchNext (s : State) : Word :=
  if s.strm.lenCur = 0 then Config.outside (s.seq.curSector.toNat + 1)
  else BitVec.ofNat 32 ((s.seq.curSector.toNat + 1) % s.strm.lenCur.toNat)

/-- R296. -/
def decError (s : State) : Option State :=
  if s.seq.terminal then
    if s.ovr.valid then some (State.goto { s with seq.terminal := false } .newFrame) else none
  else some (State.goto { s with seq.nextSector := s.searchNext } .newFrame)

/-- The step of the current state, whatever `S.en` is. -/
def decStateStep (s : State) : Option State :=
  match s.fsm.state with
  | .init => decInit s
  | .newFrame => decNewFrame s
  | .needHeader => decNeedHeader s
  | .readingHeader => decReadingHeader s
  | .needVideo => decNeedVideo s
  | .preppingVideo => decPreppingVideo s
  | .readingVideo => decReadingVideo s
  | .awaitAudioBuffer => decAwaitAudioBuffer s
  | .needAudio => decNeedAudio s
  | .readingAudio => decReadingAudio s
  | .postProcessAudio => decPostProcessAudio s
  | .audioReady => decAudioReady s
  | .frameReady => decFrameReady s
  | .hitEnd => decHitEnd s
  | .error => decError s

/-- R298, spec/10_state.md R33: DEC's step, enabled only while `S.en = 1`; none is a hold. -/
def decStep (s : State) : Option State := if s.fsm.en then decStateStep s else none

end Sys2Proof.Machine
end

