-- ==== Sys2Proof/Machine/Commands.lean ====
section
/-! DEFINITION. The host commands (spec/40_commands.md R231 to R240). -/

namespace Sys2Proof.Machine

/-- R235, R236: what a step command does once its target sector is known. -/
def State.stepTo (s : State) (sector : Word) : State :=
  { s with ovr := { valid := true, stream := s.strm.sel, sector := sector }, ctl.stepPending := true }

/-- R237, R238: the stream a switch starts from. -/
def State.switchBase (s : State) : Nat := if s.ovr.valid then s.ovr.stream.toNat else s.strm.sel.toNat

/-- R237, R238: sets the override to sector 0 of stream `k mod S.stream_count`. -/
def State.switchStream (s : State) (k : Nat) : State :=
  { s with ovr := { valid := true, stream := BitVec.ofNat 8 (k % s.strm.count.toNat), sector := 0 } }

/-- R231: `nop`. -/
def execNop (s : State) : Host.Outcome State Fault Refusal := .next s

/-- R232: `play_pause`. -/
def execPlayPause (s : State) : Host.Outcome State Fault Refusal :=
  .next { s with ctl.paused := !s.ctl.paused }

/-- R233: `set_speed s`. -/
def execSetSpeed (arg : Half) (s : State) : Host.Outcome State Fault Refusal :=
  if speedLegal (speedOf arg) then .next { s with ctl.speed := BitVec.ofInt 8 (speedOf arg) }
  else .next (s.raise (.illegalOp 3))

/-- R234: `toggle_dir`. -/
def execToggleDir (s : State) : Host.Outcome State Fault Refusal :=
  .next { s with ctl.dir := !s.ctl.dir }

/-- R235: `step_fwd`. -/
def execStepFwd (s : State) : Host.Outcome State Fault Refusal :=
  .next <|
    if s.hdrValid then s.stepTo (if s.hdr.link[0] = absentLink then 0 else s.hdr.link[0]) else s

/-- R236: `step_back`. -/
def execStepBack (s : State) : Host.Outcome State Fault Refusal :=
  .next <|
    if s.hdrValid then s.stepTo (if s.hdr.link[1] = absentLink then s.hdr.lastFrameSector else s.hdr.link[1]) else s

/-- R237: `next_stream`. -/
def execNextStream (s : State) : Host.Outcome State Fault Refusal :=
  .next <| if s.strm.count.toNat > 0 then s.switchStream (s.switchBase + 1) else s

/-- R238: `prev_stream`. -/
def execPrevStream (s : State) : Host.Outcome State Fault Refusal :=
  .next <| if s.strm.count.toNat > 0 then s.switchStream (s.switchBase + s.strm.count.toNat - 1) else s

/-- R239: `vol_up`. -/
def execVolUp (s : State) : Host.Outcome State Fault Refusal :=
  .next { s with ctl.volume := BitVec.ofNat 8 (min 255 (s.ctl.volume.toNat + Config.volStep)) }

/-- R240: `vol_down`. -/
def execVolDown (s : State) : Host.Outcome State Fault Refusal :=
  .next { s with ctl.volume := BitVec.ofNat 8 (s.ctl.volume.toNat - Config.volStep) }

end Sys2Proof.Machine
end

