-- ==== Sys2Proof/Machine/Sync.lean ====
section
/-! DEFINITION. The display-sync row buffer controller: the display-port operations and the flip (spec/43_display_sync.md). -/

namespace Sys2Proof.Machine

/-- R400: `slot(t) = add_NS(S.display_start, t)`. -/
def State.slotOfRow (s : State) (t : Nat) : Nat := addN s.cfg.rowSlots s.win.displayStart.toNat t

/-- R400: `InWin(s)`. -/
def State.inWin (s : State) (slot : Nat) : Bool :=
  inWindowN s.cfg.rowSlots s.win.validFrom.toNat s.win.validTo.toNat slot

/-- R400: `RowOK(t)`. -/
def State.rowOk (s : State) (t : Nat) : Bool := s.dsp.showing && t < s.cfg.rows && s.inWin (s.slotOfRow t)

/-- R400: `paused_eff`. -/
def State.pausedEff (s : State) : Bool := s.ctl.paused && !s.ctl.stepPending

/-- spec/30_encoding.md R157: a response with `VALID = 1` and the offset of row `t`. -/
def State.validResponse (s : State) (t : Nat) : Word := 0x80000000 ||| s.rowOffset (s.slotOfRow t)

/-- R405: the candidate of `Release`, the slot of the lowest consumer position. -/
def State.releaseSlot (s : State) : Nat := s.slotOfRow (min s.dsp.pos0.toNat s.dsp.pos1.toNat)

/-- R405: `Release()`. -/
def State.release (s : State) : State :=
  if distN s.cfg.rowSlots s.win.displayStart.toNat s.releaseSlot
      > distN s.cfg.rowSlots s.win.displayStart.toNat s.win.validFrom.toNat then
    { s with win.validFrom := BitVec.ofNat 16 s.releaseSlot }
  else s

/-- R409: `Arm()`. -/
def State.arm (s : State) : Bool :=
  s.dsp.showing && !s.pausedEff && s.dsp.holdCtr == 1
    && (match s.cfg.flipPolicy with
        | .cadence => s.next.valid
        | .ready => s.next.valid && s.next.ready)

/-- R410: the target window of a flip is contained in the valid window. -/
def State.flipWindowOk (s : State) : Bool :=
  distN s.cfg.rowSlots s.win.validFrom.toNat s.next.startSlot.toNat + s.cfg.rows
    ≤ distN s.cfg.rowSlots s.win.validFrom.toNat s.win.validTo.toNat

/-- R410: the audio of the frame now on display. -/
def State.showAudio (s : State) : State :=
  match s.disp.aslot with
  | none => s
  | some k => (s.setSlot k { s.slot k with shown := true }).tryHandoff k

/-- R410, R411: the assignments of `Flip` from `S.display_start <- T` on, each line seeing the ones before it (log 8). -/
def State.showNext (s : State) : State :=
  let shown : State :=
    { s with
      win.displayStart := s.next.startSlot
      win.validFrom := s.next.startSlot
      decShown := s.decShown || !s.next.ready
      disp := s.next
      next := FrameRec.none
      dsp.holdCtr := BitVec.ofNat 8 (holdCount s.cfg s.next.speed)
      ctl.stepPending := false }
  shown.showAudio.raise .flip

/-- R406: the last two lines of `d.tick`. -/
def State.endTick (s : State) : State :=
  let placed : State := { s with dsp.pos0 := 0, dsp.pos1 := 0 }
  { placed with dsp.armed := placed.arm }

/-- R408: the countdown of a tick that neither flips nor first-shows. -/
def State.countdown (s : State) : State :=
  { s with dsp.holdCtr := BitVec.ofNat 8 (max 1 (s.dsp.holdCtr.toNat - 1)) }

/-- R401: `d.qvalid t`. -/
def execDQvalid (t : Half) (s : State) : Host.Outcome State Fault Refusal :=
  .next (s.respond (if s.rowOk (rowOf t) then 0x80000000 else 0))

/-- R402: `d.qoffset t`. -/
def execDQoffset (t : Half) (s : State) : Host.Outcome State Fault Refusal :=
  .next (s.respond (if s.rowOk (rowOf t) then s.validResponse (rowOf t) else 0))

/-- R403: `d.advance c, t`. -/
def execDAdvance (sel : Byte) (t : Half) (s : State) : Host.Outcome State Fault Refusal :=
  .next <|
    if !s.dsp.showing then s.respond 0
    else if !s.rowOk (rowOf t) then (s.desyncReset .desyncRow).respond 0
    else
      let placed := s.setPos (unitOf sel) t
      let released := if s.dsp.armed then placed.release else placed
      released.respond (s.validResponse (rowOf t))

/-- R406: `d.tick`. -/
def execDTick (s : State) : Host.Outcome State Fault Refusal :=
  .next <|
    if s.dsp.armed then
      if s.flipWindowOk then s.showNext.endTick else s.desyncReset .desyncUnderrun
    else if !s.dsp.showing then
      if s.next.valid && s.next.ready then (State.showNext { s with dsp.showing := true }).endTick else s.endTick
    else if s.pausedEff then s.endTick
    else s.countdown.endTick

end Sys2Proof.Machine
end

