-- ==== Sys2Proof/Machine/Dispatch.lean ====
section
/-! DEFINITION. Which meaning each operation has: one arm per constructor of Instr. -/

namespace Sys2Proof.Machine

def exec (i : Instr) (s : State) : Host.Outcome State Fault Refusal :=
  match i with
  | .nop => Sys2Proof.Machine.execNop s
  | .playPause => Sys2Proof.Machine.execPlayPause s
  | .setSpeed arg => Sys2Proof.Machine.execSetSpeed arg s
  | .toggleDir => Sys2Proof.Machine.execToggleDir s
  | .stepFwd => Sys2Proof.Machine.execStepFwd s
  | .stepBack => Sys2Proof.Machine.execStepBack s
  | .nextStream => Sys2Proof.Machine.execNextStream s
  | .prevStream => Sys2Proof.Machine.execPrevStream s
  | .volUp => Sys2Proof.Machine.execVolUp s
  | .volDown => Sys2Proof.Machine.execVolDown s
  | .dQvalid t => Sys2Proof.Machine.execDQvalid t s
  | .dQoffset t => Sys2Proof.Machine.execDQoffset t s
  | .dAdvance sel t => Sys2Proof.Machine.execDAdvance sel t s
  | .dTick => Sys2Proof.Machine.execDTick s
  | .aDone sel => Sys2Proof.Machine.execADone sel s

end Sys2Proof.Machine
end

