-- ==== Sys2Proof/Machine/Ports.lean ====
section
/-! DEFINITION. The ports and the agents' turns: how a word reaches `exec`, and what one turn does (spec/00_scope.md R6, R7;
spec/30_encoding.md R150, R155; spec/40_commands.md R230, R241). -/

namespace Sys2Proof.Machine

/-- spec/40_commands.md R230: a word written to `CMD`. -/
def State.commandPort (s : State) (w : Word) : Host.Outcome State Fault Refusal :=
  match decode .host w with
  | .instr i => exec i s
  | .illegal why => .next (s.raise (.illegalOp why.subcause))

/-- spec/43_display_sync.md R400: a word at the display port; an illegal one is answered 0. -/
def State.displayPort (s : State) (caller : Caller) (w : Word) : Host.Outcome State Fault Refusal :=
  match decode .display w with
  | .instr i => exec i { s with env.caller := caller }
  | .illegal why => .next ((State.raise { s with env.caller := caller } (.illegalOp why.subcause)).respond 0)

/-- spec/30_encoding.md R155: a word at the audio port. -/
def State.audioPort (s : State) (w : Word) : Host.Outcome State Fault Refusal :=
  match decode .audio w with
  | .instr i => exec i s
  | .illegal why => .next (s.raise (.illegalOp why.subcause))

/-- spec/40_commands.md R241, spec/20_memory.md R107: a HOST write access. -/
def State.hostWrite (s : State) (addr : Word) (size : Nat) (v : Word) : Host.Outcome State Fault Refusal :=
  if writeAccepted addr size then
    if addr.toNat = 0x0C then s.commandPort v else .next (s.writeReg addr.toNat v)
  else .next (s.emit .writeError)

/-- One turn of one agent, atomic (spec/00_scope.md R7). A turn whose agent holds changes nothing (R8; log 2). -/
def State.runTurn (s : State) : Turn → Host.Outcome State Fault Refusal
  | .dec => .next ((decStep s).getD s)
  | .hostWrite addr size v => s.hostWrite addr size v
  | .busRead r addr size => .next (s.busRead r addr size)
  | .display caller w => s.displayPort caller w
  | .audio w => s.audioPort w
  | .storLand n => .next (s.storLand n)
  | .storComplete => .next s.storComplete

/-- Whose turn it is: the first given turn, else the free choice of the interleaving (log 2). -/
def State.nextTurn (s : State) : Turn :=
  match s.env.turns with
  | [] => Config.freeTurn s.env.picks
  | t :: _ => t

/-- The state once that turn is taken from what is given. -/
def State.turnTaken (s : State) : State :=
  match s.env.turns with
  | [] => { s with env.picks := s.env.picks + 1 }
  | _ :: ts => { s with env.turns := ts }

/-- The turn that delivers an operation word at the port of its opcode: HOST's write of `CMD` (offset 0x0C), DISP0's display-port
word, or AUD's word. -/
def turnOf (w : Word) : Turn :=
  match tablePort w with
  | .host => .hostWrite 0x0C 4 w
  | .display => .display .disp0 w
  | .audio => .audio w

end Sys2Proof.Machine
end

