-- ==== Sys2Proof/Machine/Step.lean ====
section
/-! DEFINITION. One step of the machine, and how an operation word is placed where the next step takes it. -/

namespace Sys2Proof.Machine

/-- One step: the turn that is due (spec/20_memory.md R116: the steps of all agents form one total order). -/
def step (s : State) : Host.Outcome State Fault Refusal := s.turnTaken.runTurn s.nextTurn

/-- `s` with the operation word `w` as the very next turn, at the port of its opcode. The block fetches nothing
(spec/20_memory.md R121): an agent hands it its words (log 3). -/
def State.withFetchWord (s : State) (nbits w : Nat) : State :=
  { s with env.turns := turnOf (tableWord nbits w) :: s.env.turns }

end Sys2Proof.Machine
end

