-- ==== Sys2Proof/Safety.lean ====
section
/-! DEFINITION. What the statements about runs speak of: frames, and the invariants of the spec as predicates on one state. -/

namespace Sys2Proof.Machine

/-- Every byte of every buffer reads as before. -/
def SameMemory (s t : State) : Prop := ∀ a, t.bufByte a = s.bufByte a

/-- What raising an event leaves: only the event registers differ, and they are as spec/60_exceptions.md R500 says for an error
event with this code and subcause and this interrupt bit. -/
def RaisedOnly (s t : State) (code sub bit : Nat) : Prop :=
  t = { s with ev := t.ev } ∧ t.ev.cause.toNat = code ∧ t.ev.subcause.toNat = sub
    ∧ (∀ i < 6, t.ev.irqStatus.getLsbD i = (s.ev.irqStatus.getLsbD i || i == bit))
    ∧ t.ev.irqEnable = s.ev.irqEnable ∧ t.ev.desyncCount = s.ev.desyncCount ∧ t.ev.fmtErrCount = s.ev.fmtErrCount

/-- The part of the state a bus read may not change (spec/20_memory.md R108): all of the block. -/
def SameBlock (s t : State) : Prop := t = { s with env := t.env } ∧ t.env.turns = s.env.turns

/-- spec/30_encoding.md R154: the port, match value and mask of every operation, as spec/opcode_table.json lists them. -/
def opcodeRows : List (Port × Word × Word) :=
  [(.host, 0x00000000, 0xFFFFFFFF), (.host, 0x01000000, 0xFFFFFFFF), (.host, 0x02000000, 0xFFFF0000),
   (.host, 0x03000000, 0xFFFFFFFF), (.host, 0x04000000, 0xFFFFFFFF), (.host, 0x05000000, 0xFFFFFFFF),
   (.host, 0x06000000, 0xFFFFFFFF), (.host, 0x07000000, 0xFFFFFFFF), (.host, 0x08000000, 0xFFFFFFFF),
   (.host, 0x09000000, 0xFFFFFFFF), (.display, 0x20000000, 0xFFFF0000), (.display, 0x21000000, 0xFFFF0000),
   (.display, 0x22000000, 0xFFFE0000), (.display, 0x23000000, 0xFFFFFFFF), (.audio, 0x30000000, 0xFFFEFFFF)]

/-- spec/43_display_sync.md R400: frame row `t` of the displayed frame may be read: a frame is shown, the frame has such a row, and
its slot is in the valid window. -/
def RowVisible (s : State) (t : Nat) : Prop :=
  s.dsp.showing = true ∧ t < s.cfg.rows
    ∧ distN s.cfg.rowSlots s.win.validFrom.toNat (addN s.cfg.rowSlots s.win.displayStart.toNat t)
        < distN s.cfg.rowSlots s.win.validFrom.toNat s.win.validTo.toNat

/-- spec/43_display_sync.md R400: playback is paused and no single step is pending. -/
def PausedEff (s : State) : Prop := s.ctl.paused = true ∧ s.ctl.stepPending = false

/-- spec/43_display_sync.md R409: the arming condition. -/
def ArmCondition (s : State) : Prop :=
  s.dsp.showing = true ∧ ¬PausedEff s ∧ s.dsp.holdCtr.toNat = 1 ∧ s.next.valid = true
    ∧ (s.cfg.flipPolicy = .ready → s.next.ready = true)

/-- spec/43_display_sync.md R410: the next frame's rows are all in the valid window. -/
def FlipFits (s : State) : Prop :=
  distN s.cfg.rowSlots s.win.validFrom.toNat s.next.startSlot.toNat + s.cfg.rows
    ≤ distN s.cfg.rowSlots s.win.validFrom.toNat s.win.validTo.toNat

/-- spec/43_display_sync.md R410, R411: `t` is `s` after the tick that put the next frame on display; `showing` is the value the
rule gives `S.showing`. Audio is handed off as spec/44_audio.md R454 says, `handed` being the state that rule acts on. -/
def ShownFrom (s t : State) : Prop :=
  t.win.displayStart = s.next.startSlot ∧ t.win.validFrom = s.next.startSlot
    ∧ t.disp = s.next ∧ t.next = FrameRec.none
    ∧ (s.next.ready = false → t.decShown = true) ∧ (s.next.ready = true → t.decShown = s.decShown)
    ∧ (t.dsp.holdCtr.toNat : Int) = s.cfg.refreshPerFrame * (1 + max 0 (-s.next.speed.toInt))
    ∧ t.ctl.stepPending = false ∧ t.dsp.showing = true ∧ t.dsp.armed = false ∧ t.dsp.pos0 = 0 ∧ t.dsp.pos1 = 0
    ∧ (∀ i < 6, t.ev.irqStatus.getLsbD i = (s.ev.irqStatus.getLsbD i || i == 3))
    ∧ t.ev = { s.ev with irqStatus := t.ev.irqStatus }
    ∧ (s.next.aslot = none → t.slot0 = s.slot0 ∧ t.slot1 = s.slot1 ∧ t.env = s.env)
    ∧ (∀ k, s.next.aslot = some k → ∀ handed,
        handed = (s.setSlot k { s.slot k with shown := true }).tryHandoff k →
          t.slot0 = handed.slot0 ∧ t.slot1 = handed.slot1 ∧ t.env = handed.env)
    ∧ t = { s with win := { s.win with displayStart := t.win.displayStart, validFrom := t.win.validFrom }
                   decShown := t.decShown, disp := t.disp, next := t.next, dsp := t.dsp
                   ctl := { s.ctl with stepPending := false }, ev := t.ev, slot0 := t.slot0, slot1 := t.slot1
                   env := { s.env with emitted := t.env.emitted } }

/-- spec/10_state.md R31 ("there is no other way to change it except the desync reset ... and the soft reset"): the step from `s` to `t`
is a soft reset, by HOST's write of `CTRL`, or a desync reset, in a display-port operation. -/
def ResetBy (s t : State) : Prop :=
  (∃ v : Word, s.nextTurn = .hostWrite 0x04 4 v ∧ v.getLsbD 1 = true ∧ t = s.turnTaken.softReset)
    ∨ ∃ c w e, s.nextTurn = .display c w ∧ (e = .desyncRow ∨ e = .desyncUnderrun) ∧ t = { s.desyncReset e with env := t.env }

/-- spec/10_state.md R31: the states in the order of their codes. -/
def decStateOrder : List DecState :=
  [.init, .newFrame, .needHeader, .readingHeader, .needVideo, .preppingVideo, .readingVideo, .awaitAudioBuffer, .needAudio,
   .readingAudio, .postProcessAudio, .audioReady, .frameReady, .hitEnd, .error]

/-- spec/10_state.md R54: the slot states in the order of their codes. -/
def slotStateOrder : List SlotState := [.empty, .filling, .queued]

/-- spec/60_exceptions.md R511: the interrupt line is the OR of the enabled status bits. -/
def InterruptRaised (v : EventState) : Prop := ∃ i < 6, v.irqStatus.getLsbD i = true ∧ v.irqEnable.getLsbD i = true

/-- spec/10_state.md R59: the fields of `STATUS`. -/
structure StatusShows (s : State) (v : Word) : Prop where
  state : decStateOrder[(v.extractLsb' 0 4).toNat]? = some s.fsm.state
  paused : v.getLsbD 4 = s.ctl.paused
  dir : v.getLsbD 5 = s.ctl.dir
  showing : v.getLsbD 6 = s.dsp.showing
  armed : v.getLsbD 7 = s.dsp.armed
  dmaBusy : v.getLsbD 8 = s.dma.busy
  terminal : v.getLsbD 9 = s.seq.terminal
  ovrValid : v.getLsbD 10 = s.ovr.valid
  stepPending : v.getLsbD 11 = s.ctl.stepPending
  slot0State : slotStateOrder[(v.extractLsb' 12 2).toNat]? = some s.slot0.state
  slot1State : slotStateOrder[(v.extractLsb' 14 2).toNat]? = some s.slot1.state
  slot0Given : v.getLsbD 16 = s.slot0.given
  slot1Given : v.getLsbD 17 = s.slot1.given
  nextValid : v.getLsbD 18 = s.next.valid
  nextReady : v.getLsbD 19 = s.next.ready
  hdrValid : v.getLsbD 20 = s.hdrValid
  en : v.getLsbD 21 = s.fsm.en
  irq : v.getLsbD 22 = true ↔ InterruptRaised s.ev
  reserved : v.extractLsb' 23 9 = 0

/-- spec/10_state.md R57 to R69, spec/40_commands.md R242: `v` is what a read of the register at offset `off` returns, field by field;
`CMD` and the reserved offsets read 0. -/
def RegisterShows (s : State) (off : Nat) (v : Word) : Prop :=
  match off with
  | 0x00 => v = 0x56444543
  | 0x04 => v.getLsbD 0 = s.fsm.en ∧ v.extractLsb' 1 31 = 0
  | 0x08 => StatusShows s v
  | 0x10 => v.extractLsb' 0 8 = s.ctl.speed ∧ v.extractLsb' 8 24 = 0
  | 0x14 => v.extractLsb' 0 8 = s.ctl.volume ∧ v.extractLsb' 8 24 = 0
  | 0x18 => v.extractLsb' 0 16 = s.win.validFrom ∧ v.extractLsb' 16 16 = s.win.validTo
  | 0x1C => v.extractLsb' 0 16 = s.win.displayStart ∧ v.extractLsb' 16 16 = s.win.plannedTo
  | 0x20 => v = s.seq.curSector
  | 0x24 => v = s.seq.nextSector
  | 0x28 => v = s.ovr.sector
  | 0x2C => v.extractLsb' 0 8 = s.strm.sel ∧ v.extractLsb' 8 8 = s.strm.count ∧ v.extractLsb' 16 8 = s.ovr.stream
      ∧ v.extractLsb' 24 8 = 0
  | 0x30 => v = s.disp.frameNumber
  | 0x34 => v = s.disp.timestamp
  | 0x38 => v.extractLsb' 0 8 = s.ev.cause ∧ v.extractLsb' 8 8 = s.ev.subcause ∧ v.extractLsb' 16 16 = 0
  | 0x3C => v = s.ev.desyncCount
  | 0x40 => v = s.ev.fmtErrCount
  | 0x44 => v.extractLsb' 0 6 = s.ev.irqStatus ∧ v.extractLsb' 6 26 = 0
  | 0x48 => v.extractLsb' 0 6 = s.ev.irqEnable ∧ v.extractLsb' 6 26 = 0
  | 0x4C => v = s.cur.writeOff
  | 0x50 => v.extractLsb' 0 16 = s.cur.fetchSec ∧ v.extractLsb' 16 16 = s.cur.rowsPlanned
  | 0x54 => v.extractLsb' 0 16 = s.dsp.pos0 ∧ v.extractLsb' 16 16 = s.dsp.pos1
  | 0x58 => v.extractLsb' 0 8 = s.dsp.holdCtr ∧ v.extractLsb' 8 24 = 0
  | 0x5C => v = s.seq.searchCtr
  | _ => v = 0

/-- spec/20_memory.md R101: the bytes of HDRBUF. -/
def InHdrbuf (a : Nat) : Prop := 0x00001000 ≤ a ∧ a < 0x00001000 + 512

/-- spec/20_memory.md R101: the bytes of ROWTAB. -/
def InRowtab (p : Params) (a : Nat) : Prop := 0x00002000 ≤ a ∧ a < 0x00002000 + 4 * p.rowSlots

/-- spec/20_memory.md R101: the bytes of `AUD_k`. -/
def InAud (p : Params) (k : Fin 2) (a : Nat) : Prop :=
  0x00100000 * (k.val + 1) ≤ a ∧ a < 0x00100000 * (k.val + 1) + 4 * p.audioSlotWords

/-- spec/20_memory.md R101: the bytes of RING. -/
def InRing (p : Params) (a : Nat) : Prop := 0x01000000 ≤ a ∧ a < 0x01000000 + 4 * p.ringWords

/-- spec/20_memory.md R101: "Every region not listed is unmapped". -/
def Mapped (p : Params) (a : Nat) : Prop := a < 0x100 ∨ InHdrbuf a ∨ InRowtab p a ∨ (∃ k, InAud p k a) ∨ InRing p a

/-- spec/20_memory.md R101, R102, R105: the reads of HDRBUF, an audio buffer or RING that the block answers with data: of 1, 2 or 4 bytes,
aligned, by HOST or a display consumer in each of them, and by AUD in a buffer it has been given. -/
def BufferReadAllowed (s : State) (r : Reader) (addr : Word) (size : Nat) : Prop :=
  (size = 1 ∨ size = 2 ∨ size = 4) ∧ addr.toNat % size = 0
    ∧ ((r ≠ .aud ∧ (InHdrbuf addr.toNat ∨ (∃ k, InAud s.cfg k addr.toNat) ∨ InRing s.cfg addr.toNat))
      ∨ (r = .aud ∧ ∃ k, (s.slot k).given = true ∧ InAud s.cfg k addr.toNat))

/-- spec/42_sg_planner.md R353, spec/10_state.md R51: `keep` is the do-not-overwrite boundary: where the row of slot `valid_from` begins,
or, with no slot assigned, the write offset. -/
def KeepBoundary (s : State) (keep : Nat) : Prop :=
  (s.win.validFrom ≠ s.win.plannedTo → ∃ e, s.rt[s.win.validFrom.toNat]? = some e ∧ keep = e.toNat / 4)
    ∧ (s.win.validFrom = s.win.plannedTo → keep = s.cur.writeOff.toNat)

/-- spec/42_sg_planner.md R354: how many rows of the frame start before its image word `w`. -/
def rowsStarting (s : State) (w : Nat) : Nat := ((Finset.range s.cfg.rows).filter fun r => s.hdr.roAt r < w).card

/-- spec/20_memory.md R112: where the words of a request go, in order: a block-local address, or nowhere (`DISCARD`). -/
def placesOf (fs : List Frag) : List (Option Nat) :=
  fs.flatMap fun f => (List.range f.words).map fun i => if f.dest = discard then none else some (f.dest.toNat + 4 * i)

/-- The destinations of two fragments have no byte in common. -/
def Frag.Disjoint (f g : Frag) : Prop :=
  f.dest = discard ∨ g.dest = discard ∨ f.dest.toNat + 4 * f.words ≤ g.dest.toNat ∨ g.dest.toNat + 4 * g.words ≤ f.dest.toNat

/-- spec/41_decoder_fsm.md R285: check `v` of the table passes, on the bytes of the header sector. -/
def HeaderCheck (p : Params) (cur : Word) (b : Nat → Byte) (v : Nat) : Prop :=
  let ro (r : Nat) : Nat := (le16 b (0x050 + 2 * r)).toNat
  match v with
  | 1 => le32 b 0x000 = p.magic0
  | 2 => le32 b 0x04C = p.magic1
  | 3 => (le16 b 0x022).toNat = 0x50 + 2 * (p.rows + 1)
  | 4 => le32 b 0x004 = cur
  | 5 => (le16 b 0x010).toNat = p.width ∧ (le16 b 0x012).toNat = p.height
  | 6 => 1 ≤ (le32 b 0x014).toNat ∧ (le32 b 0x014).toNat ≤ p.ringWords - 1
  | 7 => ro 0 = 0 ∧ (∀ r < p.rows, ro r < ro (r + 1)) ∧ ro p.rows = (le32 b 0x014).toNat
  | 8 => (le32 b 0x018).toNat % 128 = 0 ∧ (le32 b 0x018).toNat ≤ p.audioSlotWords
  | _ => True

/-- spec/41_decoder_fsm.md R299: the transitions DEC's own steps take. -/
def decTransitions : List (DecState × DecState) :=
  [(.init, .init), (.init, .newFrame), (.init, .error), (.newFrame, .needHeader), (.needHeader, .readingHeader),
   (.readingHeader, .needVideo), (.readingHeader, .error), (.needVideo, .preppingVideo), (.preppingVideo, .readingVideo),
   (.readingVideo, .preppingVideo), (.readingVideo, .awaitAudioBuffer), (.readingVideo, .audioReady),
   (.awaitAudioBuffer, .needAudio), (.needAudio, .readingAudio), (.readingAudio, .postProcessAudio),
   (.postProcessAudio, .audioReady), (.audioReady, .frameReady), (.frameReady, .newFrame), (.frameReady, .hitEnd),
   (.hitEnd, .newFrame), (.error, .newFrame)]

/-! ## Invariants -/

/-- spec/41_decoder_fsm.md R298: the states in which a read may be outstanding: a read is issued only with none outstanding, and
every state after an issue polls for completion before another issue. -/
def ReadPolled (s : State) : Prop :=
  s.dma.busy = true →
    s.fsm.state = .init ∨ s.fsm.state = .readingHeader ∨ s.fsm.state = .readingVideo ∨ s.fsm.state = .readingAudio

/-- spec/10_state.md R36: the speeds held are legal, in the control and in both frame records. -/
def SpeedsLegal (s : State) : Prop :=
  speedLegal s.ctl.speed.toInt = true ∧ speedLegal s.next.speed.toInt = true ∧ speedLegal s.disp.speed.toInt = true

/-- spec/10_state.md R46, spec/43_display_sync.md R402: the row-offset table has `P_ROW_SLOTS` entries, each a byte offset inside
RING. -/
def RowTableOk (s : State) : Prop :=
  s.rt.length = s.cfg.rowSlots ∧ ∀ v ∈ s.rt, v.toNat < 4 * s.cfg.ringWords

/-- The frame ahead has been planned or is being planned: the cursors are its own. -/
def State.planning (s : State) : Bool := s.next.valid && s.fsm.state != .needVideo

/-- Rows of the frame ahead that hold a slot. -/
def State.rowsAhead (s : State) : Nat := if s.planning then s.cur.rowsPlanned.toNat else 0

/-- Rows of the frame ahead that have fully landed. -/
def State.rowsLanded (s : State) : Nat := if s.planning then s.rowsDone s.cur.doneWords.toNat else 0

/-- Rows of the displayed frame. -/
def State.rowsShown (s : State) : Nat := if s.dsp.showing then s.cfg.rows else 0

/-- Released rows of the displayed frame (spec/10_state.md R50). -/
def State.rowsReleased (s : State) : Nat := distN s.cfg.rowSlots s.win.displayStart.toNat s.win.validFrom.toNat

/-- DEC has fully issued and counted the frame's image. -/
def DecState.imageDone (st : DecState) : Bool :=
  match st with
  | .awaitAudioBuffer | .needAudio | .readingAudio | .postProcessAudio | .audioReady | .frameReady | .newFrame | .hitEnd => true
  | .init | .needHeader | .readingHeader | .needVideo | .preppingVideo | .readingVideo | .error => false

/-- DEC is reading the frame's image. -/
def DecState.imageReading (st : DecState) : Bool := st == .preppingVideo || st == .readingVideo

/-- The three indices and the planned end, laid out from `display_start` (spec/10_state.md R47 to R50,
spec/43_display_sync.md R413): the displayed frame's rows, then the rows of the frame ahead. R50's clause
`dist(display_start, valid_to) >= ROWS` stands here as a count of rows, without the remainder modulo `P_ROW_SLOTS`: when the two frames'
rows come to `P_ROW_SLOTS`, as in R414 step 5, the remainder is 0 (the model's reading, log 25). -/
structure IndicesOk (s : State) : Prop where
  start_lt : s.win.displayStart.toNat < s.cfg.rowSlots
  from_lt : s.win.validFrom.toNat < s.cfg.rowSlots
  planned : s.win.plannedTo.toNat = addN s.cfg.rowSlots s.win.displayStart.toNat (s.rowsShown + s.rowsAhead)
  validTo : s.win.validTo.toNat = addN s.cfg.rowSlots s.win.displayStart.toNat (s.rowsShown + s.rowsLanded)
  landed_le : s.rowsLanded ≤ s.rowsAhead
  ahead_le : s.rowsAhead ≤ s.cfg.rows
  released_lt : s.rowsReleased < s.cfg.rows
  released_hidden : s.dsp.showing = false → s.rowsReleased = 0
  budget : s.rowsShown + s.rowsAhead ≤ s.rowsReleased + (s.cfg.rowSlots - 1)
  nextStart : s.next.valid = true →
    s.next.startSlot.toNat = addN s.cfg.rowSlots s.win.displayStart.toNat s.rowsShown
  pos0_lt : s.dsp.pos0.toNat < s.cfg.rows
  pos1_lt : s.dsp.pos1.toNat < s.cfg.rows
  armed_next : s.dsp.armed = true → s.dsp.showing = true ∧ s.next.valid = true

/-- The cursors of the frame ahead against its header (spec/10_state.md R44, spec/42_sg_planner.md R350 to R361). -/
structure CursorsOk (s : State) : Prop where
  off_lt : s.cur.writeOff.toNat < s.cfg.ringWords
  header : s.next.valid = true →
    rowTableOk s.cfg s.hdr = true ∧ s.hdr.imageWords.toNat ≤ s.cfg.ringWords - 1 ∧ 1 ≤ s.hdr.imageWords.toNat
  words : s.planning = true → s.cur.imgWords = s.hdr.imageWords
  sectors : s.planning = true → s.cur.imgSectors.toNat = (s.cur.imgWords.toNat + 127) / 128
  fetched : s.planning = true → s.cur.fetchSec.toNat ≤ s.cur.imgSectors.toNat
  planned : s.planning = true →
    s.cur.rowsPlanned.toNat = s.rowsBefore (min (128 * s.cur.fetchSec.toNat) s.cur.imgWords.toNat)
  done_le : s.planning = true → s.cur.doneWords.toNat ≤ min (128 * s.cur.fetchSec.toNat) s.cur.imgWords.toNat
  prepping : s.planning = true → s.fsm.state = .preppingVideo → s.cur.fetchSec.toNat < s.cur.imgSectors.toNat
  reading : s.planning = true → s.fsm.state.imageReading = true → s.cur.doneWords.toNat < s.cur.imgWords.toNat
  finished : s.planning = true → s.fsm.state.imageReading = false →
    s.cur.doneWords = s.cur.imgWords ∧ s.cur.fetchSec = s.cur.imgSectors

/-- How many slots hold a row: those of `[valid_from, planned_to)` (spec/10_state.md R50). -/
def State.slotsAssigned (s : State) : Nat := distN s.cfg.rowSlots s.win.validFrom.toNat s.win.plannedTo.toNat

/-- Where the row of the `i`-th assigned slot begins, a ring word; past the last one, where the next image word lands. -/
def State.startOf (s : State) (i : Nat) : Nat := s.rowStart (addN s.cfg.rowSlots s.win.validFrom.toNat i)

/-- How the assigned rows lie in RING (spec/42_sg_planner.md R350, R353, R361): one after the other from the do-not-overwrite boundary
to the write offset, and the frame ahead from its base. -/
structure LayoutOk (s : State) : Prop where
  length : s.rt.length = s.cfg.rowSlots
  start_lt : ∀ i < s.slotsAssigned, s.startOf i < s.cfg.ringWords
  aligned : ∀ i < s.slotsAssigned, (s.rowOffset (addN s.cfg.rowSlots s.win.validFrom.toNat i)).toNat % 4 = 0
  order : ∀ i < s.slotsAssigned,
    distN s.cfg.ringWords s.keepOff (s.startOf i) < distN s.cfg.ringWords s.keepOff (s.startOf (i + 1))
  base_lt : s.cur.frameRingBase.toNat < s.cfg.ringWords
  offset : s.planning = true →
    s.cur.writeOff.toNat =
      addN s.cfg.ringWords s.cur.frameRingBase.toNat (min (128 * s.cur.fetchSec.toNat) s.cur.imgWords.toNat)

/-- Which DEC states go with which frame records (spec/41_decoder_fsm.md R281, R284, R299, R300). -/
structure PhaseOk (s : State) : Prop where
  hidden : s.fsm.state = .init → s.dsp.showing = false ∧ s.next.valid = false ∧ s.decShown = false
  ahead : s.next.valid = true →
    s.fsm.state = .needVideo ∨ s.fsm.state.imageReading = true ∨ s.fsm.state.imageDone = true
  needed : s.fsm.state = .needVideo ∨ s.fsm.state.imageReading = true → s.next.valid = true
  shownEarly : s.decShown = true → s.next.valid = false
  ready : s.next.valid = true → s.next.ready = true → s.fsm.state = .newFrame ∨ s.fsm.state = .hitEnd

/-- spec/20_memory.md R112, R118: the outstanding read writes byte `a`. -/
def Lands (s : State) (a : Nat) : Prop :=
  s.dma.busy = true ∧ ∃ f ∈ s.dma.req.frags, f.dest ≠ discard ∧ f.dest.toNat ≤ a ∧ a < f.dest.toNat + 4 * f.words

/-- Who writes the buffers where: the words of an audio read and of a slot fit their buffer (spec/41_decoder_fsm.md R285, check 8), and
no RING byte the outstanding read writes is of the row of a slot of `[valid_from, valid_to)` (spec/20_memory.md R119,
spec/70_reset_and_hazards.md R562). -/
structure LandingOk (s : State) : Prop where
  header : s.hdr.audioWords.toNat ≤ s.cfg.audioSlotWords
  slots : ∀ k, (s.slot k).words.toNat ≤ s.cfg.audioSlotWords
  apart : ∀ a, Lands s a → InRing s.cfg a → ∀ j < distN s.cfg.rowSlots s.win.validFrom.toNat s.win.validTo.toNat,
    distN s.cfg.ringWords (s.startOf j) (s.startOf (j + 1)) ≤ distN s.cfg.ringWords (s.startOf j) ((a - ringBase) / 4)

/-- The invariant of the display-sync contract and the planner (spec/43_display_sync.md R413, spec/42_sg_planner.md R350, R361), with
what the outstanding read leaves alone (spec/20_memory.md R119). -/
structure SyncInv (s : State) : Prop where
  indices : IndicesOk s
  cursors : CursorsOk s
  phase : PhaseOk s
  layout : LayoutOk s
  landing : LandingOk s

end Sys2Proof.Machine
end

