-- ==== Sys2Proof/Certificates/Slice0/Obligations.lean ====
section
/-! DEFINITION. The statements for the provers. A state `s` ranges over every state and every legal parameter value; the witness
theorems of the hypotheses stand in Sys2Proof/Tests/Slice0.lean. -/

open Sys2Proof Sys2Proof.Machine

/-! ## Operation words (spec/30_encoding.md) -/

/-- R154, R158: decoding what an operation encodes to gives the operation back, with every operand value the encoding admits. -/
def Obligations.DecodeInvertsEncode : Prop :=
  ∀ i : Instr, i.wellFormed = true → decode i.port (encode i) = .instr i

/-- R151, R154, R158: a word decodes to one operation only, the one it encodes: no bit of a legal word is dropped. -/
def Obligations.EncodeInvertsDecode : Prop :=
  ∀ (p : Port) (w : Word) (i : Instr), decode p w = .instr i → i.wellFormed = true ∧ i.port = p ∧ encode i = w

/-- R153, R154: words written out from the opcode map decode to their operations (the words of spec/95_test_vectors.md L2.1). -/
def Obligations.SpecWordsDecode : Prop :=
  decode .host 0x00000000 = .instr .nop ∧ decode .host 0x0200FFFF = .instr (.setSpeed 0xFFFF)
    ∧ decode .host 0x09000000 = .instr .volDown ∧ decode .display 0x21000003 = .instr (.dQoffset 3)
    ∧ decode .display 0x22010002 = .instr (.dAdvance 1 2) ∧ decode .display 0x23000000 = .instr .dTick
    ∧ decode .audio 0x30010000 = .instr (.aDone 1)
    ∧ decode .host 0x00010000 = .illegal .nonzeroMustBeZero ∧ decode .display 0x22020000 = .illegal .nonzeroMustBeZero
    ∧ decode .host 0x20000000 = .illegal .wrongPort ∧ decode .audio 0x31000000 = .illegal .reservedOpcode

/-- R151, R154: the legal words of each port are exactly those that match a row of the opcode table under its mask; so a word is legal
only at the port its opcode belongs to, and opcodes from 0x40 are reserved at every port. -/
def Obligations.LegalWordsMatchTheMasks : Prop :=
  (∀ (p : Port) (w : Word),
    (∃ i, decode p w = .instr i) ↔ ∃ r ∈ opcodeRows, r.1 = p ∧ w &&& r.2.2 = r.2.1)
  ∧ (∀ (p : Port) (w : Word) (i : Instr), decode p w = .instr i →
    match p with
    | .host => opcOf w ≤ 0x1F
    | .display => 0x20 ≤ opcOf w ∧ opcOf w ≤ 0x2F
    | .audio => 0x30 ≤ opcOf w ∧ opcOf w ≤ 0x3F)
  ∧ ∀ (p : Port) (w : Word), 0x40 ≤ opcOf w → decode p w = .illegal .reservedOpcode

/-! ## Steps (spec/00_scope.md R6, R7; spec/60_exceptions.md R501) -/

/-- Every step is one agent's turn, run in the state with that turn taken, and a word that decodes at its port is executed by the step
that takes its turn (at the display port, with its caller noted for the response). That turns come from a list, and from a free choice
when the list is empty, is the model's form (logs 2 and 3). -/
def Obligations.StepRunsTheDecodedOperation : Prop :=
  ∀ (s : State) (ts : List Turn) (w : Word) (i : Instr),
    (decode .host w = .instr i → s.env.turns = .hostWrite 0x0C 4 w :: ts →
      step s = exec i { s with env.turns := ts })
    ∧ (∀ c, decode .display w = .instr i → s.env.turns = .display c w :: ts →
      step s = exec i { s with env := { s.env with turns := ts, caller := c } })
    ∧ (decode .audio w = .instr i → s.env.turns = .audio w :: ts → step s = exec i { s with env.turns := ts })
    ∧ (∀ nbits n, decodeTableWord nbits n = some i →
      step (s.withFetchWord nbits n) =
        exec i { s with env.caller := if i.port = .display then .disp0 else s.env.caller })
    ∧ (∀ turn, s.env.turns = turn :: ts → step s = State.runTurn { s with env.turns := ts } turn)
    ∧ (s.env.turns = [] →
      step s = State.runTurn { s with env.picks := s.env.picks + 1 } (Config.freeTurn s.env.picks))

/-- R501: no step of any agent stops the machine: every step answers a next state (a turn whose agent holds changes nothing:
the model's form, log 2). -/
def Obligations.EveryStepCompletes : Prop := ∀ s : State, ∃ t, step s = .next t

/-- spec/30_encoding.md R155: an illegal word raises `ILLEGAL_OP` with subcause 1 (reserved opcode, must-be-zero bit) or 2 (opcode
of another port) and changes nothing else; at the display port it is answered 0. An argument out of range raises subcause 3 and an
`a.done` of a slot not given subcause 4, and change nothing else. Which check a word that fails two of them fails first is the
model's order (log 9). -/
def Obligations.IllegalWordsOnlyRaise : Prop :=
  ∀ s : State,
    (∀ (w : Word) (why : IllegalWord),
      (decode .host w = .illegal why →
        ∃ t, s.runTurn (.hostWrite 0x0C 4 w) = .next t ∧ RaisedOnly s t 6 (if why = .wrongPort then 2 else 1) 4)
      ∧ (decode .audio w = .illegal why →
        ∃ t, s.runTurn (.audio w) = .next t ∧ RaisedOnly s t 6 (if why = .wrongPort then 2 else 1) 4)
      ∧ ∀ c, decode .display w = .illegal why →
        ∃ t, s.runTurn (.display c w) = .next t
          ∧ t.env = { s.env with caller := c, emitted := .response c 0 :: s.env.emitted }
          ∧ RaisedOnly { s with env := t.env } t 6 (if why = .wrongPort then 2 else 1) 4)
    ∧ (∀ arg : Half, arg.toInt < -16 ∨ 3 < arg.toInt → ∃ t, exec (.setSpeed arg) s = .next t ∧ RaisedOnly s t 6 3 4)
    ∧ ∀ sel : Byte, (s.slot (unitOf sel)).given = false →
        ∃ t, exec (.aDone sel) s = .next t ∧ RaisedOnly s t 6 4 4

/-! ## Host commands (spec/40_commands.md) -/

/-- R231: `nop` changes nothing, and any other word with opcode 0 is illegal with subcause 1. -/
def Obligations.NopChangesNothing : Prop :=
  (∀ s : State, exec .nop s = .next s) ∧ encode .nop = 0x00000000
    ∧ ∀ w : Word, opcOf w = 0 → w ≠ 0 → ∃ why, decode .host w = .illegal why ∧ why.subcause = 1

/-- R232, R234: `play_pause` toggles `S.paused` and `toggle_dir` toggles `S.dir`; nothing else changes, and doing it twice
restores the state. -/
def Obligations.TogglesFlipOneFlag : Prop :=
  ∀ s : State,
    (∃ t, exec .playPause s = .next t ∧ t.ctl.paused = !s.ctl.paused ∧ t = { s with ctl.paused := t.ctl.paused }
      ∧ SameMemory s t ∧ exec .playPause t = .next s)
    ∧ (∃ t, exec .toggleDir s = .next t ∧ t.ctl.dir = !s.ctl.dir ∧ t = { s with ctl.dir := t.ctl.dir }
      ∧ SameMemory s t ∧ exec .toggleDir t = .next s)
    ∧ encode .playPause = 0x01000000 ∧ encode .toggleDir = 0x03000000

/-- R233: `set_speed` sets `S.speed` to the signed argument when it lies in -16..3, and otherwise raises `ILLEGAL_OP` with
subcause 3; nothing else changes. -/
def Obligations.SetSpeedChecksTheRange : Prop :=
  ∀ (s : State) (arg : Half),
    (-16 ≤ arg.toInt ∧ arg.toInt ≤ 3 →
      ∃ t, exec (.setSpeed arg) s = .next t ∧ t.ctl.speed.toInt = arg.toInt
        ∧ t = { s with ctl.speed := t.ctl.speed } ∧ SameMemory s t)
    ∧ (arg.toInt < -16 ∨ 3 < arg.toInt →
      ∃ t, exec (.setSpeed arg) s = .next t ∧ RaisedOnly s t 6 3 4 ∧ SameMemory s t)
    ∧ encode (.setSpeed arg) = 0x02000000 ||| arg.setWidth 32

/-- R235, R236: with a header accepted, a step command sets the override to the header's +1 (or -1) link, wrapping to sector 0 (or
the last frame's sector) where the link is absent, and sets `S.step_pending`; with none it does nothing. -/
def Obligations.StepCommandsSetTheOverride : Prop :=
  ∀ s : State,
    (s.hdrValid = true →
      ∃ t, exec .stepFwd s = .next t ∧ t.ovr.valid = true ∧ t.ovr.stream = s.strm.sel
        ∧ (s.hdr.link[0] = 0xFFFFFFFF → t.ovr.sector = 0)
        ∧ (s.hdr.link[0] ≠ 0xFFFFFFFF → t.ovr.sector = s.hdr.link[0])
        ∧ t.ctl.stepPending = true
        ∧ t = { s with ovr := t.ovr, ctl.stepPending := t.ctl.stepPending } ∧ SameMemory s t)
    ∧ (s.hdrValid = true →
      ∃ t, exec .stepBack s = .next t ∧ t.ovr.valid = true ∧ t.ovr.stream = s.strm.sel
        ∧ (s.hdr.link[1] = 0xFFFFFFFF → t.ovr.sector = s.hdr.lastFrameSector)
        ∧ (s.hdr.link[1] ≠ 0xFFFFFFFF → t.ovr.sector = s.hdr.link[1])
        ∧ t.ctl.stepPending = true
        ∧ t = { s with ovr := t.ovr, ctl.stepPending := t.ctl.stepPending } ∧ SameMemory s t)
    ∧ (s.hdrValid = false → exec .stepFwd s = .next s ∧ exec .stepBack s = .next s)
    ∧ encode .stepFwd = 0x04000000 ∧ encode .stepBack = 0x05000000

/-- R237, R238: with streams known, a stream command sets the override to sector 0 of the next (previous) stream, counted modulo
the number of streams from the override's stream or, with no override, the current one; with none known it does nothing. -/
def Obligations.StreamCommandsSetTheOverride : Prop :=
  ∀ (s : State) (base : Nat),
    base = (if s.ovr.valid = true then s.ovr.stream.toNat else s.strm.sel.toNat) →
    (0 < s.strm.count.toNat →
      ∃ t, exec .nextStream s = .next t ∧ t.ovr.valid = true
        ∧ t.ovr.stream.toNat = (base + 1) % s.strm.count.toNat ∧ t.ovr.sector = 0
        ∧ t = { s with ovr := t.ovr } ∧ SameMemory s t)
    ∧ (0 < s.strm.count.toNat →
      ∃ t, exec .prevStream s = .next t ∧ t.ovr.valid = true
        ∧ t.ovr.stream.toNat = (base + s.strm.count.toNat - 1) % s.strm.count.toNat ∧ t.ovr.sector = 0
        ∧ t = { s with ovr := t.ovr } ∧ SameMemory s t)
    ∧ (s.strm.count.toNat = 0 → exec .nextStream s = .next s ∧ exec .prevStream s = .next s)
    ∧ encode .nextStream = 0x06000000 ∧ encode .prevStream = 0x07000000

/-- R239, R240: the volume commands move `S.volume` by 16 and saturate at 255 and 0; nothing else changes. -/
def Obligations.VolumeCommandsSaturate : Prop :=
  ∀ s : State,
    (∃ t, exec .volUp s = .next t ∧ (t.ctl.volume.toNat : Int) = min 255 ((s.ctl.volume.toNat : Int) + 16)
      ∧ t = { s with ctl.volume := t.ctl.volume } ∧ SameMemory s t)
    ∧ (∃ t, exec .volDown s = .next t ∧ (t.ctl.volume.toNat : Int) = max 0 ((s.ctl.volume.toNat : Int) - 16)
      ∧ t = { s with ctl.volume := t.ctl.volume } ∧ SameMemory s t)
    ∧ encode .volUp = 0x08000000 ∧ encode .volDown = 0x09000000

/-- R230: no command reads or writes RING (or any buffer), `RT`, the row indices or the audio slots, and each completes in every
state: run with other contents of those, it does the same and leaves them as they are. -/
def Obligations.CommandsLeaveTheRingAlone : Prop :=
  ∀ (i : Instr) (s : State) (mem : Mem) (rt : List Word) (win : Window) (slot0 slot1 : AudioSlot),
    i.port = .host →
    ∃ t, exec i s = .next t ∧ t.mem = s.mem ∧ t.rt = s.rt ∧ t.win = s.win ∧ t.slot0 = s.slot0 ∧ t.slot1 = s.slot1
      ∧ exec i { s with mem := mem, rt := rt, win := win, slot0 := slot0, slot1 := slot1 }
          = .next { t with mem := mem, rt := rt, win := win, slot0 := slot0, slot1 := slot1 }

/-! ## The display port (spec/43_display_sync.md) -/

/-- R401, R402: a query answers whether row `t` is visible (`d.qoffset` with the row's byte offset) and changes nothing. -/
def Obligations.QueriesAnswerAndChangeNothing : Prop :=
  ∀ (s : State) (t : Half),
    (∃ u, exec (.dQvalid t) s = .next u
      ∧ (RowVisible s t.toNat → u.env.emitted = .response s.env.caller 0x80000000 :: s.env.emitted)
      ∧ (¬RowVisible s t.toNat → u.env.emitted = .response s.env.caller 0 :: s.env.emitted)
      ∧ u = { s with env.emitted := u.env.emitted } ∧ SameMemory s u)
    ∧ ∃ u, exec (.dQoffset t) s = .next u
      ∧ (RowVisible s t.toNat → u.env.emitted = .response s.env.caller
          (0x80000000 ||| s.rowOffset (addN s.cfg.rowSlots s.win.displayStart.toNat t.toNat)) :: s.env.emitted)
      ∧ (¬RowVisible s t.toNat → u.env.emitted = .response s.env.caller 0 :: s.env.emitted)
      ∧ u = { s with env.emitted := u.env.emitted } ∧ SameMemory s u

/-- spec/30_encoding.md R157: in the response for a visible row bit 31 is 1; in that of `d.qoffset` and `d.advance` bits 30:0 are the
byte offset of the row, which lies inside RING (R402: `RT[s] < 4 * P_RING_WORDS < 2^31`), and in that of `d.qvalid` they are 0. -/
def Obligations.ResponseFieldsOfVisibleRow : Prop :=
  ∀ (s : State) (t : Half), RowTableOk s → RowVisible s t.toNat →
    (∀ i : Instr, (i = .dQoffset t ∨ ∃ sel, i = .dAdvance sel t) →
      ∃ u w, exec i s = .next u ∧ u.env.emitted = .response s.env.caller w :: s.env.emitted
        ∧ w.getLsbD 31 = true ∧ w.toNat % 2 ^ 31 < 4 * s.cfg.ringWords
        ∧ s.rt[addN s.cfg.rowSlots s.win.displayStart.toNat t.toNat]? = some (BitVec.ofNat 32 (w.toNat % 2 ^ 31)))
    ∧ ∃ u w, exec (.dQvalid t) s = .next u ∧ u.env.emitted = .response s.env.caller w :: s.env.emitted
        ∧ w.getLsbD 31 = true ∧ w.toNat % 2 ^ 31 = 0

/-- R403: before the first show `d.advance` answers 0 and changes nothing; to a row that is not visible it answers 0 and resets
(`DESYNC_ROW`); otherwise it moves the consumer, releases rows only while armed, and answers the row's offset. `Release` sees the
position just written (log 8). -/
def Obligations.AdvanceMovesOrDesyncs : Prop :=
  ∀ (s : State) (sel : Byte) (t : Half),
    (s.dsp.showing = false →
      exec (.dAdvance sel t) s = .next { s with env.emitted := .response s.env.caller 0 :: s.env.emitted })
    ∧ (s.dsp.showing = true → ¬RowVisible s t.toNat →
      ∃ u, exec (.dAdvance sel t) s = .next u ∧ u.env = { s.env with emitted := .response s.env.caller 0 :: s.env.emitted }
        ∧ u = { s.desyncReset .desyncRow with env := u.env } ∧ SameMemory s u)
    ∧ (RowVisible s t.toNat →
      ∃ u, exec (.dAdvance sel t) s = .next u
        ∧ (sel.getLsbD 0 = false → u.dsp.pos0 = t ∧ u.dsp.pos1 = s.dsp.pos1)
        ∧ (sel.getLsbD 0 = true → u.dsp.pos0 = s.dsp.pos0 ∧ u.dsp.pos1 = t)
        ∧ u.env.emitted = .response s.env.caller
            (0x80000000 ||| s.rowOffset (addN s.cfg.rowSlots s.win.displayStart.toNat t.toNat)) :: s.env.emitted
        ∧ u.env = { s.env with emitted := u.env.emitted }
        ∧ (s.dsp.armed = false → u.win.validFrom = s.win.validFrom)
        ∧ (∀ cand, s.dsp.armed = true →
            cand = addN s.cfg.rowSlots s.win.displayStart.toNat (min u.dsp.pos0.toNat u.dsp.pos1.toNat) →
            (distN s.cfg.rowSlots s.win.displayStart.toNat s.win.validFrom.toNat
                < distN s.cfg.rowSlots s.win.displayStart.toNat cand → u.win.validFrom.toNat = cand)
            ∧ (distN s.cfg.rowSlots s.win.displayStart.toNat cand
                ≤ distN s.cfg.rowSlots s.win.displayStart.toNat s.win.validFrom.toNat →
                u.win.validFrom = s.win.validFrom))
        ∧ u = { s with dsp := { s.dsp with pos0 := u.dsp.pos0, pos1 := u.dsp.pos1 }
                       win.validFrom := u.win.validFrom, env := u.env }
        ∧ SameMemory s u)

/-- R405: `Release` moves `valid_from` forward only, and exactly to the lowest consumer position where that is farther. -/
def Obligations.ReleaseMovesForwardOnly : Prop :=
  ∀ s : State, s.win.displayStart.toNat < s.cfg.rowSlots → s.win.validFrom.toNat < s.cfg.rowSlots →
    min s.dsp.pos0.toNat s.dsp.pos1.toNat < s.cfg.rowSlots →
    distN s.cfg.rowSlots s.win.displayStart.toNat s.release.win.validFrom.toNat
      = max (distN s.cfg.rowSlots s.win.displayStart.toNat s.win.validFrom.toNat)
          (min s.dsp.pos0.toNat s.dsp.pos1.toNat)
    ∧ s.release = { s with win.validFrom := s.release.win.validFrom }

/-- R406, R408: a tick that neither flips nor first-shows a frame counts the displayed frame's refreshes down to 1 unless playback
is paused, clears the positions, and changes nothing of the block but those and `S.armed`; with nothing shown and nothing ready it
only clears the positions. -/
def Obligations.TickCountsDown : Prop :=
  ∀ s : State, s.dsp.armed = false →
    (s.dsp.showing = true →
      ∃ t, exec .dTick s = .next t
        ∧ (PausedEff s → t.dsp.holdCtr = s.dsp.holdCtr)
        ∧ (¬PausedEff s → (t.dsp.holdCtr.toNat : Int) = max 1 ((s.dsp.holdCtr.toNat : Int) - 1))
        ∧ t.dsp.showing = true ∧ t.dsp.pos0 = 0 ∧ t.dsp.pos1 = 0 ∧ (t.dsp.armed = true ↔ ArmCondition t)
        ∧ t = { s with dsp := t.dsp } ∧ SameMemory s t)
    ∧ (s.dsp.showing = false → ¬(s.next.valid = true ∧ s.next.ready = true) →
      exec .dTick s = .next { s with dsp := { s.dsp with pos0 := 0, pos1 := 0, armed := false } })

/-- R410: an armed tick flips when the target window is in the valid window: the next frame is displayed, the old frame's rows are
released, its hold count starts, and no flip is armed for the refresh it starts (the next frame record is free). Otherwise it is an
underrun: the desync reset, and nothing after it. The lines of `Flip` see each other's values (log 8), and `FLIP` sets its
interrupt bit only (log 16). -/
def Obligations.ArmedTickFlipsOrResets : Prop :=
  ∀ s : State, s.dsp.armed = true →
    (s.dsp.showing = true → FlipFits s → speedLegal s.next.speed.toInt = true →
      ∃ t, exec .dTick s = .next t ∧ ShownFrom s t ∧ SameMemory s t)
    ∧ (¬FlipFits s → exec .dTick s = .next (s.desyncReset .desyncUnderrun))

/-- R411: with nothing shown, a tick shows a fully decoded frame, whatever the flip policy and although playback is paused (logs 8
and 16, as for a flip). -/
def Obligations.TickShowsTheFirstFrame : Prop :=
  ∀ s : State, s.dsp.armed = false → s.dsp.showing = false → s.next.valid = true → s.next.ready = true →
    speedLegal s.next.speed.toInt = true → ∃ t, exec .dTick s = .next t ∧ ShownFrom s t ∧ SameMemory s t

/-- R412: the hold count of a legal speed: `P_REFRESH_PER_FRAME` refreshes for speeds 0..3, `1 + |sp|` times as many for the hold
tiers, and always 1..255. -/
def Obligations.HoldCountRange : Prop :=
  ∀ (p : Params) (sp : BitVec 8), -16 ≤ sp.toInt → sp.toInt ≤ 3 →
    1 ≤ holdCount p sp ∧ holdCount p sp ≤ 255
    ∧ (0 ≤ sp.toInt → holdCount p sp = p.refreshPerFrame)
    ∧ (sp.toInt < 0 → (holdCount p sp : Int) = p.refreshPerFrame * (1 + |sp.toInt|))

/-! ## Audio (spec/44_audio.md) -/

/-- R456: `a.done` of a given slot empties it; of any other slot it raises `ILLEGAL_OP` with subcause 4; nothing else changes. -/
def Obligations.DoneReturnsTheSlot : Prop :=
  ∀ (s : State) (sel : Byte) (k : Fin 2), k.val = sel.toNat % 2 →
    ((s.slot k).given = true →
      ∃ t, exec (.aDone sel) s = .next t
        ∧ t.slot k = { s.slot k with given := false, shown := false, state := .empty }
        ∧ t.slot (1 - k) = s.slot (1 - k)
        ∧ t = { s with slot0 := t.slot0, slot1 := t.slot1 } ∧ SameMemory s t)
    ∧ ((s.slot k).given = false → ∃ t, exec (.aDone sel) s = .next t ∧ RaisedOnly s t 6 4 4 ∧ SameMemory s t)

/-- R454, R455: a queued buffer of a shown frame, not yet given, is handed to AUD; while paused or inaudible it is silently
discarded; any other buffer stays as it is. -/
def Obligations.HandoffGivesOrDiscards : Prop :=
  ∀ (s : State) (k : Fin 2),
    (s.tryHandoff k).slot (1 - k) = s.slot (1 - k)
    ∧ (s.tryHandoff k = { s with slot0 := (s.tryHandoff k).slot0, slot1 := (s.tryHandoff k).slot1
                                 env.emitted := (s.tryHandoff k).env.emitted })
    ∧ ((s.slot k).state = .queued ∧ (s.slot k).shown = true ∧ (s.slot k).given = false →
        (s.ctl.paused = true ∨ (s.slot k).audible = false →
          (s.tryHandoff k).slot k = { s.slot k with state := .empty, shown := false }
          ∧ (s.tryHandoff k).env.emitted = s.env.emitted)
        ∧ (s.ctl.paused = false ∧ (s.slot k).audible = true →
          (s.tryHandoff k).slot k = { s.slot k with given := true }
          ∧ ∃ a : Word, a.toNat = 0x100000 * (k.val + 1)
              ∧ (s.tryHandoff k).env.emitted = .give k a (s.slot k).words :: s.env.emitted))
    ∧ (¬((s.slot k).state = .queued ∧ (s.slot k).shown = true ∧ (s.slot k).given = false) → s.tryHandoff k = s)

/-- R453: `Gain1` is the floor of `x * (g + 1) / 256`, unity at 255, never larger in size than the sample, so that it fits 16 bits;
`Gain` applies it to both halves of a word. -/
def Obligations.GainOfSamples : Prop :=
  (∀ (x : Int) (g : Nat), -32768 ≤ x → x ≤ 32767 → g ≤ 255 →
    256 * gain1 x g ≤ x * (g + 1) ∧ x * (g + 1) < 256 * (gain1 x g + 1)
      ∧ |gain1 x g| ≤ |x| ∧ -32768 ≤ gain1 x g ∧ gain1 x g ≤ 32767 ∧ gain1 x 255 = x)
  ∧ ∀ (w : Word) (g : BitVec 8),
    ((gainWord g w).extractLsb' 16 16).toInt = gain1 (w.extractLsb' 16 16).toInt g.toNat
      ∧ ((gainWord g w).extractLsb' 0 16).toInt = gain1 (w.extractLsb' 0 16).toInt g.toNat

/-- R451: the pass over sector pairs does to the buffer what R451 says its whole effect is: word `j` becomes the gain of word `j`,
or of word `N - 1 - j` in reverse. -/
def Obligations.SectorPairPassIsReversalAndGain : Prop :=
  ∀ (rev : Bool) (g : BitVec 8) (n : Nat) (ws : List Word), ws.length = 128 * n →
    (processWords rev g n ws).length = 128 * n
    ∧ ∀ j < 128 * n,
        (processWords rev g n ws)[j]? = (ws[if rev then 128 * n - 1 - j else j]?).map (gainWord g)

/-! ## The decoder (spec/41_decoder_fsm.md) -/

/-- spec/10_state.md R33, spec/41_decoder_fsm.md R298, R299: while `S.en` is 0 DEC's turn changes nothing, in any state; while it is 1
DEC's turn is the step `decStep` of its state, which the statements below speak of, and a hold changes nothing (log 2); and every step
DEC takes is a transition of the summary table. -/
def Obligations.DecoderTransitions : Prop :=
  (∀ (s : State) (ts : List Turn), s.fsm.en = false → s.env.turns = .dec :: ts →
    step s = .next { s with env.turns := ts })
  ∧ (∀ (s : State) (ts : List Turn), s.fsm.en = true → s.env.turns = .dec :: ts →
    (∀ t, decStep { s with env.turns := ts } = some t → step s = .next t)
    ∧ (decStep { s with env.turns := ts } = none → step s = .next { s with env.turns := ts }))
  ∧ ∀ s t : State, decStep s = some t → (s.fsm.state, t.fsm.state) ∈ decTransitions ∧ s.fsm.en = true ∧ t.fsm.en = true

/-- R280: INIT issues the directory read, waits for it, then makes the current (or first) stream current, or ends in a terminal
ERROR with `NO_STREAM`. The streams it takes are the first 4 of the directory of HDRBUF, those of length 0 left out before 4 are taken
(log 14); the base and length made current are those of the selection just written (log 8). -/
def Obligations.InitDiscoversStreams : Prop :=
  ∀ s : State, s.fsm.en = true → s.fsm.state = .init →
    (s.dma.busy = true → decStep s = none)
    ∧ (s.dma.busy = false → s.fsm.initPhase = false →
      ∃ t, decStep s = some t ∧ t.fsm = { s.fsm with initPhase := true }
        ∧ t.dma = { busy := true, landed := 0, stale := false
                    req := { lba := 0, count := 1, frags := [{ dest := 0x00001000, words := 128 }] } }
        ∧ t = { s with fsm := t.fsm, dma := t.dma })
    ∧ (s.cfg.directory = .mbr →
      s.foundStreams = ((mbrDirectory s.cfg s.hdrByte).filter fun e => e.len ≠ 0).take 4)
    ∧ (s.cfg.directory = .other →
      s.foundStreams = ((Config.otherDirectory ((List.range 512).map s.hdrByte)).filter fun e => e.len ≠ 0).take 4)
    ∧ (s.dma.busy = false → s.fsm.initPhase = true →
      ∃ t, decStep s = some t ∧ t.fsm.initPhase = false ∧ t.ovr.valid = false ∧ t.ctl.stepPending = false
        ∧ t.hdrValid = false ∧ t.seq.searchCtr = 0
        ∧ (s.foundStreams = [] →
          t.fsm.state = .error ∧ t.seq = { s.seq with searchCtr := 0, terminal := true }
            ∧ t.strm = { s.strm with count := 0 } ∧ t.ev.cause = 5 ∧ t.ev.subcause = 0
            ∧ (∀ i < 6, t.ev.irqStatus.getLsbD i = (s.ev.irqStatus.getLsbD i || i == 2))
            ∧ t.ev = { s.ev with cause := t.ev.cause, subcause := t.ev.subcause, irqStatus := t.ev.irqStatus })
        ∧ (s.foundStreams ≠ [] →
          t.fsm.state = .newFrame ∧ t.seq.terminal = false ∧ t.strm.count.toNat = s.foundStreams.length
            ∧ (∀ i, (h : i < 4) → i < s.foundStreams.length → s.foundStreams[i]? = some (t.strm.table[i]'h))
            ∧ (s.foundStreams.length ≤ s.strm.sel.toNat → t.strm.sel = 0)
            ∧ (s.strm.sel.toNat < s.foundStreams.length → t.strm.sel = s.strm.sel)
            ∧ s.foundStreams[t.strm.sel.toNat]? = some { base := t.strm.baseCur, len := t.strm.lenCur }
            ∧ t.seq.curSector = 0 ∧ t.seq.nextSector = 0 ∧ t.ev = s.ev)
        ∧ t = { s with fsm := { s.fsm with state := t.fsm.state, initPhase := false }, ovr.valid := false
                       ctl.stepPending := false, hdrValid := false, seq := t.seq, strm := t.strm, ev := t.ev })

/-- spec/30_encoding.md R175, R176: the default directory lists the qualifying partition entries in entry order, or, with no
signature, the whole device. -/
def Obligations.DefaultDirectoryLists : Prop :=
  ∀ (p : Params) (b : Nat → Byte),
    (¬(b 510 = 0x55 ∧ b 511 = 0xAA) → mbrDirectory p b = [{ base := 0, len := p.deviceSectors }])
    ∧ (b 510 = 0x55 ∧ b 511 = 0xAA →
      mbrDirectory p b =
        ((List.range 4).filter fun i => b (0x1BE + 16 * i + 4) ≠ 0 ∧ le32 b (0x1BE + 16 * i + 12) ≠ 0).map
          fun i => { base := le32 b (0x1BE + 16 * i + 8), len := le32 b (0x1BE + 16 * i + 12) })

/-- R281: NEW_FRAME waits while a decoded frame is not shown; an override takes precedence, is consumed, and switches the stream if
it names another; otherwise the next sector is taken. -/
def Obligations.NewFrameTakesTheOverride : Prop :=
  ∀ s : State, s.fsm.en = true → s.fsm.state = .newFrame →
    (s.next.valid = true → decStep s = none)
    ∧ (s.next.valid = false → s.ovr.valid = true →
      ∃ t, decStep s = some t ∧ t.fsm.state = .needHeader ∧ t.seq.curSector = s.ovr.sector ∧ t.ovr.valid = false
        ∧ t.seq.searchCtr = 0
        ∧ (s.ovr.stream = s.strm.sel → t.strm = s.strm)
        ∧ (s.ovr.stream ≠ s.strm.sel → t.strm.sel = s.ovr.stream ∧ t.strm.count = s.strm.count
            ∧ t.strm.table = s.strm.table
            ∧ ∀ h : s.ovr.stream.toNat < 4,
                { base := t.strm.baseCur, len := t.strm.lenCur : Stream } = s.strm.table[s.ovr.stream.toNat])
        ∧ t = { s with fsm := t.fsm, strm := t.strm, ovr.valid := false
                       seq := { s.seq with curSector := t.seq.curSector, searchCtr := 0 } })
    ∧ (s.next.valid = false → s.ovr.valid = false →
      decStep s = some { s with fsm.state := .needHeader, seq.curSector := s.seq.nextSector })

/-- R282, R290: NEED_HEADER reads the header's sector into HDRBUF and NEED_AUDIO the frame's audio sectors into its slot's buffer,
each the current stream's sector plus its base modulo 2^32. -/
def Obligations.HeaderAndAudioReads : Prop :=
  ∀ s : State, s.fsm.en = true → s.dma.busy = false →
    (s.fsm.state = .needHeader →
      ∃ t, decStep s = some t ∧ t.dma = { busy := true, landed := 0, stale := false, req := t.dma.req }
        ∧ t.dma.req.lba.toNat = (s.strm.baseCur.toNat + s.seq.curSector.toNat) % 2 ^ 32
        ∧ t.dma.req.count = 1 ∧ t.dma.req.frags = [{ dest := 0x00001000, words := 128 }]
        ∧ t = { s with fsm.state := .readingHeader, dma := t.dma })
    ∧ ∀ k : Fin 2, s.fsm.state = .needAudio → (if s.decShown = true then s.disp else s.next).aslot = some k →
        s.hdr.audioWords.toNat ≤ s.cfg.audioSlotWords →
        ∃ t, decStep s = some t ∧ t.dma = { busy := true, landed := 0, stale := false, req := t.dma.req }
          ∧ t.dma.req.lba.toNat = (s.strm.baseCur.toNat + s.seq.curSector.toNat + 1) % 2 ^ 32
          ∧ t.dma.req.count.toNat = s.hdr.audioWords.toNat / 128
          ∧ t.dma.req.frags = [{ dest := if k = 0 then 0x00100000 else 0x00200000, words := s.hdr.audioWords.toNat }]
          ∧ t = { s with fsm.state := .readingAudio, dma := t.dma }

/-- R285: the header is accepted when all eight checks pass, and otherwise the first check that fails gives the subcause. -/
def Obligations.FirstFailingHeaderCheck : Prop :=
  ∀ (p : Params) (cur : Word) (b : Nat → Byte),
    (validate p cur b = none ↔ ∀ v, 1 ≤ v → v ≤ 8 → HeaderCheck p cur b v)
    ∧ ∀ v, validate p cur b = some v ↔
        1 ≤ v ∧ v ≤ 8 ∧ ¬HeaderCheck p cur b v ∧ ∀ u, 1 ≤ u → u < v → HeaderCheck p cur b u

/-- R283, R284: an accepted header is latched field by field and its frame record takes the speed and direction of this step, and
the frame number and timestamp just latched (log 8). -/
def Obligations.AcceptanceLatchesTheHeader : Prop :=
  ∀ s : State, s.fsm.en = true → s.fsm.state = .readingHeader → s.dma.busy = false →
    (∀ v, 1 ≤ v → v ≤ 8 → HeaderCheck s.cfg s.seq.curSector s.hdrByte v) →
    ∃ t, decStep s = some t ∧ t.fsm.state = .needVideo
      ∧ t.hdr.sector = s.seq.curSector ∧ t.hdr.frameNumber = le32 s.hdrByte 0x008 ∧ t.hdr.timestamp = le32 s.hdrByte 0x00C
      ∧ t.hdr.width.toNat = s.cfg.width ∧ t.hdr.height.toNat = s.cfg.height
      ∧ t.hdr.imageWords = le32 s.hdrByte 0x014 ∧ t.hdr.audioWords = le32 s.hdrByte 0x018
      ∧ t.hdr.audioFreq = le32 s.hdrByte 0x01C ∧ t.hdr.audioChannels = le16 s.hdrByte 0x020
      ∧ t.hdr.headerBytes.toNat = 0x50 + 2 * (s.cfg.rows + 1)
      ∧ t.hdr.totalSectors = le32 s.hdrByte 0x024 ∧ t.hdr.lastFrameSector = le32 s.hdrByte 0x028
      ∧ (∀ i, (h : i < 8) → t.hdr.link[i]'h = le32 s.hdrByte (0x02C + 4 * i))
      ∧ (∀ r ≤ s.cfg.rows, t.hdr.ro[r]? = some (le16 s.hdrByte (0x050 + 2 * r)))
      ∧ t.hdrValid = true ∧ t.seq.searchCtr = 0 ∧ t.decShown = false
      ∧ t.next = { valid := true, ready := false, startSlot := s.win.plannedTo, sector := s.seq.curSector
                   frameNumber := t.hdr.frameNumber, timestamp := t.hdr.timestamp, speed := s.ctl.speed, dir := s.ctl.dir
                   aslot := none }
      ∧ t = { s with fsm.state := .needVideo, hdr := t.hdr, hdrValid := true, seq.searchCtr := 0, next := t.next
                     decShown := false }

/-- R297 (and spec/60_exceptions.md R500's pair): a rejected header is counted, raises `FORMAT` with its subcause and, when the
search has tried the whole stream, `TERMINAL_SEARCH`; DEC goes to ERROR and nothing else changes. The comparison takes the count
just written (log 8), before any truncation (log 15). -/
def Obligations.RejectionCountsTheSearch : Prop :=
  ∀ (s : State) (v : Nat), s.fsm.en = true → s.fsm.state = .readingHeader → s.dma.busy = false →
    validate s.cfg s.seq.curSector s.hdrByte = some v →
    ∃ t, decStep s = some t ∧ t.fsm.state = .error
      ∧ t.ev.fmtErrCount.toNat = (s.ev.fmtErrCount.toNat + 1) % 2 ^ 32
      ∧ t.seq.searchCtr = s.seq.searchCtr + 1
      ∧ (s.seq.searchCtr.toNat + 1 < s.strm.lenCur.toNat →
        t.seq.terminal = s.seq.terminal ∧ t.ev.cause = 3 ∧ t.ev.subcause.toNat = v
          ∧ ∀ i < 6, t.ev.irqStatus.getLsbD i = (s.ev.irqStatus.getLsbD i || i == 1))
      ∧ (s.strm.lenCur.toNat ≤ s.seq.searchCtr.toNat + 1 →
        t.seq.terminal = true ∧ t.ev.cause = 4 ∧ t.ev.subcause = 0
          ∧ ∀ i < 6, t.ev.irqStatus.getLsbD i = (s.ev.irqStatus.getLsbD i || (i == 1 || i == 2)))
      ∧ t.ev.desyncCount = s.ev.desyncCount ∧ t.ev.irqEnable = s.ev.irqEnable
      ∧ t = { s with fsm.state := .error, ev := t.ev
                     seq := { s.seq with searchCtr := t.seq.searchCtr, terminal := t.seq.terminal } }

/-- R286: NEED_VIDEO sets the cursors of the frame, its image following the audio and landing where the previous frame's ended. That
the sector of the image wraps at 32 bits is the model's reading (log 15). -/
def Obligations.VideoCursorsStart : Prop :=
  ∀ s : State, s.fsm.en = true → s.fsm.state = .needVideo → s.hdr.imageWords.toNat ≤ 65535 →
    ∃ t, decStep s = some t ∧ t.fsm.state = .preppingVideo
      ∧ t.cur.imgSector0.toNat = (s.seq.curSector.toNat + 1 + s.hdr.audioWords.toNat / 128) % 2 ^ 32
      ∧ t.cur.imgWords = s.hdr.imageWords ∧ t.cur.imgSectors.toNat = (s.hdr.imageWords.toNat + 127) / 128
      ∧ t.cur.fetchSec = 0 ∧ t.cur.doneWords = 0 ∧ t.cur.rowsPlanned = 0
      ∧ t.cur.frameRingBase = s.cur.writeOff ∧ t.cur.writeOff = s.cur.writeOff
      ∧ t = { s with fsm.state := .preppingVideo, cur := t.cur }

/-- R288, spec/42_sg_planner.md R360: a completed read advances `valid_to` to the rows whose last word has landed, counted one by
one, and DEC goes on with the frame, its audio, or its end. The rows are counted against the words just counted (log 8). -/
def Obligations.CompletionCountsWholeRows : Prop :=
  ∀ s : State, s.fsm.en = true → s.fsm.state = .readingVideo →
    (s.dma.busy = true → decStep s = none)
    ∧ (s.dma.busy = false →
      ∃ t n, decStep s = some t
        ∧ t.cur.doneWords.toNat = min (128 * s.cur.fetchSec.toNat) s.cur.imgWords.toNat
        ∧ n = ((Finset.range s.cfg.rows).filter fun r => s.hdr.roAt (r + 1) ≤ t.cur.doneWords.toNat).card
        ∧ t.win.validTo.toNat = addN s.cfg.rowSlots s.next.startSlot.toNat n
        ∧ (s.cur.fetchSec.toNat < s.cur.imgSectors.toNat → t.fsm.state = .preppingVideo)
        ∧ (s.cur.imgSectors.toNat ≤ s.cur.fetchSec.toNat → 0 < s.hdr.audioWords.toNat → t.fsm.state = .awaitAudioBuffer)
        ∧ (s.cur.imgSectors.toNat ≤ s.cur.fetchSec.toNat → s.hdr.audioWords.toNat = 0 → t.fsm.state = .audioReady)
        ∧ t = { s with fsm := { s.fsm with state := t.fsm.state }, cur.doneWords := t.cur.doneWords
                       win.validTo := t.win.validTo })

/-- R289, R291, R292, spec/44_audio.md R450, R451: the audio states take the lowest Empty slot (latching audibility), wait for the
read, then post-process, queue and try to hand off the slot's buffer, in that order (log 8). Post-processing a buffer of `n` sectors
makes word `j` the gain of word `j`, or of word `N - 1 - j` for a frame latched backward, and leaves every byte outside it. -/
def Obligations.AudioStatesFillASlot : Prop :=
  ∀ s : State, s.fsm.en = true →
    (s.fsm.state = .awaitAudioBuffer → s.slot0.state ≠ .empty → s.slot1.state ≠ .empty → decStep s = none)
    ∧ (∀ k : Fin 2, s.fsm.state = .awaitAudioBuffer → (s.slot k).state = .empty → (k = 1 → s.slot0.state ≠ .empty) →
      ∃ t, decStep s = some t ∧ t.fsm.state = .needAudio
        ∧ t.slot k = { state := .filling, given := false, shown := s.decShown
                       audible := decide ((if s.decShown = true then s.disp else s.next).speed = 0), words := s.hdr.audioWords }
        ∧ t.slot (1 - k) = s.slot (1 - k)
        ∧ t.disp = (if s.decShown = true then { s.disp with aslot := some k } else s.disp)
        ∧ t.next = (if s.decShown = true then s.next else { s.next with aslot := some k })
        ∧ t = { s with fsm.state := .needAudio, slot0 := t.slot0, slot1 := t.slot1, disp := t.disp, next := t.next })
    ∧ (s.fsm.state = .readingAudio → s.dma.busy = true → decStep s = none)
    ∧ (s.fsm.state = .readingAudio → s.dma.busy = false → decStep s = some { s with fsm.state := .postProcessAudio })
    ∧ (∀ (k : Fin 2) (q : State), s.fsm.state = .postProcessAudio →
        (if s.decShown = true then s.disp else s.next).aslot = some k →
        q = (s.postProcess k).setSlot k { s.slot k with state := .queued } →
        decStep s = some { q.tryHandoff k with fsm.state := .audioReady })
    ∧ ∀ (k : Fin 2) (n : Nat), s.fsm.state = .postProcessAudio →
        (if s.decShown = true then s.disp else s.next).aslot = some k → (s.slot k).words.toNat = 128 * n →
        ∃ t, decStep s = some t
          ∧ (∀ j < 128 * n, t.bufWord (audBase k + 4 * j) =
            gainWord s.ctl.volume (s.bufWord (audBase k + 4 *
              (if (if s.decShown = true then s.disp else s.next).dir = true then 128 * n - 1 - j else j))))
          ∧ (∀ a, a < audBase k ∨ audBase k + 512 * n ≤ a → t.bufByte a = s.bufByte a)
          ∧ t = { s with fsm.state := .audioReady, mem := t.mem, slot0 := t.slot0, slot1 := t.slot1
                         env.emitted := t.env.emitted }

/-- R293, R294: FRAME_READY marks the frame ready and picks the next sector from the link of the current speed's magnitude and
direction, wrapping through HIT_END at a stream end. -/
def Obligations.TrickPlaySelectsTheLink : Prop :=
  ∀ s : State, s.fsm.en = true → speedLegal s.ctl.speed.toInt = true →
    (s.fsm.state = .audioReady → decStep s = some { s with fsm.state := .frameReady })
    ∧ ∀ m : Nat, (m : Int) = max 0 s.ctl.speed.toInt → s.fsm.state = .frameReady →
      ∃ t, ∃ h : 2 * m + s.ctl.dir.toNat < 8, decStep s = some t
        ∧ (s.hdr.link[2 * m + s.ctl.dir.toNat]'h ≠ 0xFFFFFFFF →
          t.fsm.state = .newFrame ∧ t.seq.nextSector = s.hdr.link[2 * m + s.ctl.dir.toNat]'h)
        ∧ (s.hdr.link[2 * m + s.ctl.dir.toNat]'h = 0xFFFFFFFF →
          t.fsm.state = .hitEnd ∧ (s.ctl.dir = false → t.seq.nextSector = 0)
            ∧ (s.ctl.dir = true → t.seq.nextSector = s.hdr.lastFrameSector))
        ∧ t.disp = (if s.decShown = true then { s.disp with ready := true } else s.disp)
        ∧ t.next = (if s.decShown = true then s.next else { s.next with ready := true })
        ∧ t = { s with fsm.state := t.fsm.state, seq.nextSector := t.seq.nextSector, disp := t.disp, next := t.next }

/-- R295, R296: HIT_END raises its event; ERROR moves the search to the next sector of the stream, or, when terminal, waits for an
override. -/
def Obligations.ErrorAndEndRecover : Prop :=
  ∀ s : State, s.fsm.en = true →
    (s.fsm.state = .hitEnd →
      ∃ t, decStep s = some t ∧ t.fsm.state = .newFrame
        ∧ (∀ i < 6, t.ev.irqStatus.getLsbD i = (s.ev.irqStatus.getLsbD i || i == 5))
        ∧ t.ev = { s.ev with irqStatus := t.ev.irqStatus } ∧ t = { s with fsm.state := .newFrame, ev := t.ev })
    ∧ (s.fsm.state = .error → s.seq.terminal = false → 0 < s.strm.lenCur.toNat →
      ∃ t, decStep s = some t ∧ t.seq.nextSector.toNat = (s.seq.curSector.toNat + 1) % s.strm.lenCur.toNat
        ∧ t = { s with fsm.state := .newFrame, seq.nextSector := t.seq.nextSector })
    ∧ (s.fsm.state = .error → s.seq.terminal = true → s.ovr.valid = true →
      decStep s = some { s with fsm.state := .newFrame, seq.terminal := false })
    ∧ (s.fsm.state = .error → s.seq.terminal = true → s.ovr.valid = false → decStep s = none)

/-! ## The planner (spec/42_sg_planner.md) and storage (spec/20_memory.md) -/

/-- R355, R357, spec/30_encoding.md R171: a batch never passes the frame or the batch limit, its fragments (at most 3) carry
exactly its sectors' words, a RING fragment lies inside RING, and the words go, in order, to the ring words from `write_off` on (modulo
the ring size) and the padding of the last sector to `DISCARD`. -/
def Obligations.PlanIsWellFormed : Prop :=
  ∀ s : State, s.cur.writeOff.toNat < s.cfg.ringWords → s.cur.imgSectors.toNat = (s.cur.imgWords.toNat + 127) / 128 →
    s.cur.fetchSec.toNat ≤ s.cur.imgSectors.toNat →
    s.plan.k ≤ s.cfg.maxBatchSectors ∧ s.cur.fetchSec.toNat + s.plan.k ≤ s.cur.imgSectors.toNat
    ∧ (s.plan.frags.map (·.words)).sum = 128 * s.plan.k ∧ s.plan.frags.length ≤ 3
    ∧ (∀ n, n = min (128 * (s.cur.fetchSec.toNat + s.plan.k)) s.cur.imgWords.toNat
          - min (128 * s.cur.fetchSec.toNat) s.cur.imgWords.toNat →
        placesOf s.plan.frags =
          ((List.range n).map fun i => some (ringBase + 4 * ((s.cur.writeOff.toNat + i) % s.cfg.ringWords)))
            ++ List.replicate (128 * s.plan.k - n) none)
    ∧ ∀ f ∈ s.plan.frags, 1 ≤ f.words ∧
        (f.dest = discard ∨
          ringBase ≤ f.dest.toNat ∧ f.dest.toNat % 4 = 0 ∧ f.dest.toNat + 4 * f.words ≤ ringBase + 4 * s.cfg.ringWords)

/-- R353, R361: every ring word a batch writes is free: counted from the write offset it comes before the do-not-overwrite
boundary. So no batch writes a word of a row in `[valid_from, planned_to)`: in every state of the invariant, of no assigned slot. -/
def Obligations.PlanWritesOnlyFreeWords : Prop :=
  (∀ (s : State) (keep : Nat), KeepBoundary s keep → s.cur.writeOff.toNat < s.cfg.ringWords →
    ∀ f ∈ s.plan.frags, f.dest ≠ discard → ∀ i < f.words,
      ∃ x, f.dest.toNat + 4 * i = ringBase + 4 * x ∧ x < s.cfg.ringWords
        ∧ distN s.cfg.ringWords s.cur.writeOff.toNat x
            < s.cfg.ringWords - 1 - distN s.cfg.ringWords keep s.cur.writeOff.toNat)
  ∧ ∀ s : State, SyncInv s →
    ∀ f ∈ s.plan.frags, f.dest ≠ discard → ∀ i < f.words,
      ∃ x, f.dest.toNat + 4 * i = ringBase + 4 * x ∧ x < s.cfg.ringWords
        ∧ ∀ j < s.slotsAssigned,
            distN s.cfg.ringWords (s.startOf j) (s.startOf (j + 1)) ≤ distN s.cfg.ringWords (s.startOf j) x

/-- R287, R355, R356, R357: PREPPING_VIDEO holds on an empty batch; otherwise it writes the byte offset of each row the batch starts, in
slot order from the frame's first slot, leaves every other entry, moves the cursors past the batch and issues its request, and `valid_to`
and the buffers do not move. The batch is as long as it may be: at the sector after it a stop of `Plan` holds (the frame's end, the batch
limit, too few free words, too few free slots, or the ring's end reached), and no longer: its words and its new rows fit, and before its
last sector the ring's end was not reached, so that a batch ends with the sector that reaches it. -/
def Obligations.CommitRecordsRowOffsets : Prop :=
  ∀ s : State, RowTableOk s → s.fsm.en = true → s.fsm.state = .preppingVideo → s.dma.busy = false →
  (s.plan.k = 0 → decStep s = none)
  ∧ (∀ keep w0 w1 w2, KeepBoundary s keep → s.cur.writeOff.toNat < s.cfg.ringWords →
      s.cur.imgSectors.toNat = (s.cur.imgWords.toNat + 127) / 128 → s.cur.fetchSec.toNat ≤ s.cur.imgSectors.toNat →
      w0 = min (128 * s.cur.fetchSec.toNat) s.cur.imgWords.toNat →
      w1 = min (128 * (s.cur.fetchSec.toNat + s.plan.k)) s.cur.imgWords.toNat →
      w2 = min (128 * (s.cur.fetchSec.toNat + s.plan.k + 1)) s.cur.imgWords.toNat →
      (1 ≤ s.plan.k → s.plan.rp = rowsStarting s w1) ∧ s.plan.wo = (s.cur.writeOff.toNat + (w1 - w0)) % s.cfg.ringWords
      ∧ w1 - w0 ≤ s.cfg.ringWords - 1 - distN s.cfg.ringWords keep s.cur.writeOff.toNat
      ∧ s.plan.rp - s.cur.rowsPlanned.toNat
          ≤ s.cfg.rowSlots - 1 - distN s.cfg.rowSlots s.win.validFrom.toNat s.win.plannedTo.toNat
      ∧ (1 ≤ s.plan.k →
        s.cur.writeOff.toNat + (min (128 * (s.cur.fetchSec.toNat + s.plan.k - 1)) s.cur.imgWords.toNat - w0) < s.cfg.ringWords)
      ∧ (s.cur.fetchSec.toNat + s.plan.k = s.cur.imgSectors.toNat ∨ s.plan.k = s.cfg.maxBatchSectors
        ∨ s.cfg.ringWords - 1 - distN s.cfg.ringWords keep s.cur.writeOff.toNat < w2 - w0
        ∨ s.cfg.rowSlots - 1 - distN s.cfg.rowSlots s.win.validFrom.toNat s.win.plannedTo.toNat
            < rowsStarting s w2 - s.cur.rowsPlanned.toNat
        ∨ (1 ≤ s.plan.k ∧ s.cfg.ringWords ≤ s.cur.writeOff.toNat + (w1 - w0))))
  ∧ (1 ≤ s.plan.k → ∃ t, decStep s = some t ∧
    (∀ r, s.cur.rowsPlanned.toNat ≤ r → r < s.plan.rp →
      ∃ e, t.rt[addN s.cfg.rowSlots s.next.startSlot.toNat r]? = some e
        ∧ e.toNat = 4 * ((s.cur.frameRingBase.toNat + s.hdr.roAt r) % s.cfg.ringWords))
    ∧ (∀ x, (∀ r, s.cur.rowsPlanned.toNat ≤ r → r < s.plan.rp → x ≠ addN s.cfg.rowSlots s.next.startSlot.toNat r) →
      t.rt[x]? = s.rt[x]?)
    ∧ t.win.plannedTo.toNat = addN s.cfg.rowSlots s.win.plannedTo.toNat (s.plan.rp - s.cur.rowsPlanned.toNat)
    ∧ t.cur.rowsPlanned.toNat = s.plan.rp ∧ t.cur.writeOff.toNat = s.plan.wo
    ∧ t.cur.fetchSec.toNat = (s.cur.fetchSec.toNat + s.plan.k) % 2 ^ 16
    ∧ t.dma = { busy := true, landed := 0, stale := false, req := t.dma.req }
    ∧ t.dma.req.count.toNat = s.plan.k ∧ t.dma.req.frags = s.plan.frags
    ∧ t.dma.req.lba.toNat = (s.strm.baseCur.toNat + s.cur.imgSector0.toNat + s.cur.fetchSec.toNat) % 2 ^ 32
    ∧ t = { s with fsm.state := .readingVideo, rt := t.rt, win.plannedTo := t.win.plannedTo, dma := t.dma
                   cur := { s.cur with rowsPlanned := t.cur.rowsPlanned, writeOff := t.cur.writeOff
                                       fetchSec := t.cur.fetchSec } })

/-- R112: landing a request in two parts lands what landing it in one does, for every byte. That the parts land in rising order is the
model's choice (log 7): in the middle of a read only this statement sees it. -/
def Obligations.LandingInPartsIsLandingAtOnce : Prop :=
  ∀ (s : State) (m n a : Nat), ((s.storLand m).storLand n).bufByte a = (s.storLand (m + n)).bufByte a
    ∧ ((s.storLand m).storLand n).dma = (s.storLand (m + n)).dma

/-- R112, R118, spec/30_encoding.md R169: when STOR lands the rest of a read, whatever part of it has landed, and completes it, each
fragment holds its part of the sectors' bytes in order, the words that had landed before being left as they were;
`DISCARD` fragments' parts are dropped, and every byte outside the destinations is as before. A read that a reset made stale, its words
landed before the reset or after it, leaves unspecified bytes at every destination instead (spec/70_reset_and_hazards.md R561; fresh
free bytes, log 26), and the next draw is of a byte past them. Inside a request the sector number wraps at 32 bits (`State.sectorByte`,
log 6). The completion is not taken before every word has been written (`landed` counts them, log 7), and with no read outstanding STOR
takes no step: such a turn changes nothing (log 2). -/
def Obligations.LandedDataReadsBack : Prop :=
  (∀ (s : State) (m : Nat), s.dma.busy = true → s.dma.req.words ≤ s.dma.landed + m →
    (s.dma.req.frags.map (·.words)).sum = s.dma.req.words → s.dma.req.frags.Pairwise Frag.Disjoint →
    ∃ t u, s.runTurn (.storLand m) = .next t ∧ t.runTurn .storComplete = .next u
      ∧ u.dma = { busy := false, landed := s.dma.req.words, stale := false, req := s.dma.req }
      ∧ (∀ (pre : List Frag) (f : Frag) (post : List Frag) (n : Nat), s.dma.req.frags = pre ++ f :: post →
        f.dest ≠ Machine.discard → n = (pre.map (·.words)).sum →
        ∀ i < 4 * f.words,
          (s.dma.stale = false → 4 * s.dma.landed ≤ 4 * n + i →
            u.bufByte (f.dest.toNat + i) = s.sectorByte s.dma.req.lba (4 * n + i))
          ∧ (s.dma.stale = false → 4 * n + i < 4 * s.dma.landed → u.bufByte (f.dest.toNat + i) = s.bufByte (f.dest.toNat + i))
          ∧ (s.dma.stale = true → u.bufByte (f.dest.toNat + i) = Config.freeByte (s.env.draws + (4 * n + i))))
      ∧ (∀ a, (∀ f ∈ s.dma.req.frags, f.dest ≠ Machine.discard → a < f.dest.toNat ∨ f.dest.toNat + 4 * f.words ≤ a) →
        u.bufByte a = s.bufByte a)
      ∧ (s.dma.stale = false → u.env = s.env)
      ∧ (s.dma.stale = true → u.env.draws = s.env.draws + 512 * s.dma.req.count.toNat)
      ∧ u = { s with dma := u.dma, mem := u.mem, env.draws := u.env.draws })
  ∧ (∀ s : State, s.dma.busy = true → s.dma.landed < 128 * s.dma.req.count.toNat → s.runTurn .storComplete = .next s)
  ∧ ∀ (s : State) (n : Nat), s.dma.busy = false →
      s.runTurn (.storLand n) = .next s ∧ s.runTurn .storComplete = .next s

/-- R118, spec/70_reset_and_hazards.md R562, in the model's form (logs 5 and 24): every read of HDRBUF, an audio buffer or RING that R101,
R102 and R105 allow returns, byte by byte, a free byte where the byte is unspecified (a read in flight writes it, or a display consumer
reads RING outside the rows of the valid window) and the stored byte elsewhere; the free bytes are fresh ones at every read. -/
def Obligations.UnspecifiedBytesReadAsAnyValue : Prop :=
  (∀ (s : State) (r : Reader) (addr : Word) (size : Nat), BufferReadAllowed s r addr size →
    (∃ i < size, s.unspecified r (addr.toNat + i) = true) →
    ∃ v : Word,
      s.runTurn (.busRead r addr size) =
        .next { s with env := { s.env with draws := s.env.draws + size, emitted := .readData r v false :: s.env.emitted } }
      ∧ ∀ i < 4, v.extractLsb' (8 * i) 8 =
          if size ≤ i then 0
          else if s.unspecified r (addr.toNat + i) = true then Config.freeByte (s.env.draws + i)
          else s.bufByte (addr.toNat + i))
  ∧ ∀ (s : State) (r : Reader) (a : Nat),
    s.unspecified r a = true ↔
      (s.dma.busy = true ∧ ∃ f ∈ s.dma.req.frags, f.dest ≠ discard ∧ f.dest.toNat ≤ a ∧ a < f.dest.toNat + 4 * f.words)
      ∨ ((r = .disp0 ∨ r = .disp1) ∧ ringBase ≤ a
        ∧ ¬(s.win.validFrom ≠ s.win.validTo
          ∧ distN s.cfg.ringWords (s.rowStart s.win.validFrom.toNat) ((a - ringBase) / 4)
              < distN s.cfg.ringWords (s.rowStart s.win.validFrom.toNat) (s.rowStart s.win.validTo.toNat)))

/-! ## Registers, events, resets (spec/10_state.md, spec/60_exceptions.md, spec/70_reset_and_hazards.md) -/

/-- spec/20_memory.md R107, R108: a misaligned access, a width the region does not take, a write outside CSR, and an access to an
unmapped address answer a bus error (value 0 for a read) and change nothing; no read has a side effect on the block in any region. -/
def Obligations.ReadsAndRefusalsChangeNothing : Prop :=
  ∀ (s : State) (r : Reader) (addr : Word) (size : Nat) (v : Word),
    (addr.toNat % size ≠ 0 ∨ ¬(size = 1 ∨ size = 2 ∨ size = 4) ∨ (addr.toNat < 0x100 ∧ size ≠ 4)
        ∨ ¬Mapped s.cfg addr.toNat →
      s.runTurn (.busRead r addr size) = .next { s with env.emitted := .readData r 0 true :: s.env.emitted })
    ∧ (addr.toNat % 4 ≠ 0 ∨ size ≠ 4 ∨ 0x100 ≤ addr.toNat →
      s.runTurn (.hostWrite addr size v) = .next { s with env.emitted := .writeError :: s.env.emitted })
    ∧ ∃ t value err, s.runTurn (.busRead r addr size) = .next t ∧ SameBlock s t ∧ SameMemory s t
      ∧ t.env.emitted = .readData r value err :: s.env.emitted

/-- spec/20_memory.md R101, R102, R104, R105, R123: an aligned read of 1, 2 or 4 bytes of HDRBUF, an audio buffer or RING by HOST or a
display consumer, and of a given audio buffer by AUD, is answered with data and no error; with no byte unspecified it returns its bytes,
the lowest address least significant, zero-extended; under the invariant of O56 no
byte of a word `k` of a row in the valid window, at the address of R123, is unspecified for any reader (the outstanding read never writes
it, R119), and no step changes it (spec/43_display_sync.md R404); and ROWTAB shows `RT[i]` at 0x2000 + 4i, little-endian, in reads of 1, 2
and 4 bytes. -/
def Obligations.BufferReadsAreLittleEndian : Prop :=
  (∀ (s : State) (r : Reader) (addr : Word) (size : Nat), BufferReadAllowed s r addr size →
    ∃ (v : Word) (n : Nat), s.runTurn (.busRead r addr size) =
      .next { s with env := { s.env with draws := n, emitted := .readData r v false :: s.env.emitted } })
  ∧ (∀ (s : State) (r : Reader) (addr : Word) (size : Nat), BufferReadAllowed s r addr size →
    (∀ i < size, s.unspecified r (addr.toNat + i) = false) →
    ∃ v : Word, s.runTurn (.busRead r addr size) = .next { s with env.emitted := .readData r v false :: s.env.emitted }
      ∧ ∀ i < 4, v.extractLsb' (8 * i) 8 = if i < size then s.bufByte (addr.toNat + i) else 0)
  ∧ (∀ (s : State) (r : Reader) (i k b : Nat), SyncInv s →
    i < distN s.cfg.rowSlots s.win.validFrom.toNat s.win.validTo.toNat →
    k < distN s.cfg.ringWords (s.startOf i) (s.startOf (i + 1)) → b < 4 →
    ∀ a, a = rowWordAddr s.cfg (s.rowOffset (addN s.cfg.rowSlots s.win.validFrom.toNat i)) k + b →
      ringBase ≤ a ∧ a < ringBase + 4 * s.cfg.ringWords ∧ s.unspecified r a = false
        ∧ ∀ t, step s = .next t → t.bufByte a = s.bufByte a)
  ∧ ∀ (s : State) (r : Reader) (i j size : Nat), r ≠ .aud → s.rt.length = s.cfg.rowSlots → i < s.cfg.rowSlots →
    size = 1 ∨ size = 2 ∨ size = 4 → j + size ≤ 4 → j % size = 0 →
    ∃ v e, s.runTurn (.busRead r (BitVec.ofNat 32 (0x2000 + 4 * i + j)) size) =
        .next { s with env.emitted := .readData r v false :: s.env.emitted }
      ∧ s.rt[i]? = some e ∧ ∀ x < 4, v.extractLsb' (8 * x) 8 = if x < size then e.extractLsb' (8 * (j + x)) 8 else 0

/-- spec/40_commands.md R241, spec/10_state.md R58, R62, R68: what a HOST write does to each register other than `CMD`: it sets
`EN`, `VOLUME` or `IRQ_ENABLE`, clears the written ones of `IRQ_STATUS`, and at every other offset nothing. That a write of a read-only
register is answered with no bus error is the model's reading of R241 (log 23). -/
def Obligations.RegisterWritesSetTheirFields : Prop :=
  ∀ (s : State) (v : Word),
    (v.getLsbD 1 = false → s.runTurn (.hostWrite 0x04 4 v) = .next { s with fsm.en := v.getLsbD 0 })
    ∧ (∃ t, s.runTurn (.hostWrite 0x14 4 v) = .next t ∧ t.ctl.volume.toNat = v.toNat % 256
        ∧ t = { s with ctl.volume := t.ctl.volume })
    ∧ (∃ t, s.runTurn (.hostWrite 0x44 4 v) = .next t
        ∧ (∀ i < 6, t.ev.irqStatus.getLsbD i = (s.ev.irqStatus.getLsbD i && !v.getLsbD i))
        ∧ t = { s with ev.irqStatus := t.ev.irqStatus })
    ∧ (∃ t, s.runTurn (.hostWrite 0x48 4 v) = .next t ∧ (∀ i < 6, t.ev.irqEnable.getLsbD i = v.getLsbD i)
        ∧ t = { s with ev.irqEnable := t.ev.irqEnable })
    ∧ ∀ addr : Word, addr.toNat < 0x100 → addr.toNat % 4 = 0 → addr ∉ [0x04, 0x0C, 0x14, 0x44, 0x48] →
        s.runTurn (.hostWrite addr 4 v) = .next s

/-- spec/70_reset_and_hazards.md R550: after power-on reset every field of the block has the value the rule's table gives it (all 0 but
`S.volume`, 255, and the `aslot` of the frame records), the buffers' contents are unspecified (free bytes, log 4), and so `ID` reads
0x56444543, `VOLUME` 0xFF and every other register 0. -/
def Obligations.PowerOnResetValues : Prop :=
  (∀ (p : Params) (s : State), s = State.powerOn p →
    s.cfg = p
    ∧ s.fsm = { state := .init, initPhase := false, en := false }
    ∧ s.ctl = { paused := false, dir := false, speed := 0, volume := 255, stepPending := false }
    ∧ s.ovr = { valid := false, stream := 0, sector := 0 }
    ∧ s.strm.count = 0 ∧ (∀ i, (h : i < 4) → s.strm.table[i]'h = { base := 0, len := 0 })
    ∧ s.strm.sel = 0 ∧ s.strm.baseCur = 0 ∧ s.strm.lenCur = 0
    ∧ s.seq = { curSector := 0, nextSector := 0, searchCtr := 0, terminal := false }
    ∧ s.hdrValid = false
    ∧ s.hdr = { sector := 0, frameNumber := 0, timestamp := 0, width := 0, height := 0, imageWords := 0, audioWords := 0
                audioFreq := 0, audioChannels := 0, headerBytes := 0, totalSectors := 0, lastFrameSector := 0
                link := s.hdr.link, ro := s.hdr.ro }
    ∧ (∀ i, (h : i < 8) → s.hdr.link[i]'h = 0) ∧ s.hdr.ro.length = p.rows + 1 ∧ (∀ v ∈ s.hdr.ro, v = 0)
    ∧ s.cur = { imgSector0 := 0, imgWords := 0, imgSectors := 0, fetchSec := 0, doneWords := 0, rowsPlanned := 0
                frameRingBase := 0, writeOff := 0 }
    ∧ s.rt.length = p.rowSlots ∧ (∀ v ∈ s.rt, v = 0)
    ∧ s.win = { validFrom := 0, validTo := 0, displayStart := 0, plannedTo := 0 }
    ∧ (∀ f, f = s.next ∨ f = s.disp →
      f = { valid := false, ready := false, startSlot := 0, sector := 0, frameNumber := 0, timestamp := 0, speed := 0, dir := false
            aslot := none })
    ∧ s.decShown = false
    ∧ s.dsp = { showing := false, armed := false, holdCtr := 0, pos0 := 0, pos1 := 0 }
    ∧ (∀ k, s.slot k = { state := .empty, given := false, shown := false, audible := false, words := 0 })
    ∧ s.dma.busy = false ∧ s.dma.req = { lba := 0, count := 0, frags := [] }
    ∧ s.ev = { cause := 0, subcause := 0, desyncCount := 0, fmtErrCount := 0, irqStatus := 0, irqEnable := 0 }
    ∧ ∀ a, s.bufByte a = Config.powerOnByte a)
  ∧ ∀ (p : Params) (off : Nat), off < 0x100 → off % 4 = 0 →
    (State.powerOn p).readReg off = if off = 0 then 0x56444543 else if off = 0x14 then 0xFF else 0

/-- spec/40_commands.md R242, spec/10_state.md R57 to R69, spec/60_exceptions.md R511: a 4-byte read of each offset of CSR, in every
state, returns the register's fields (`STATUS` bit 22 the interrupt line, the OR of the enabled status bits; `CMD` and reserved offsets
0) and changes nothing. -/
def Obligations.RegisterReadsShowTheState : Prop :=
  ∀ (s : State) (r : Reader) (off : Nat), r ≠ .aud → off < 0x100 → off % 4 = 0 →
    ∃ v, s.runTurn (.busRead r (BitVec.ofNat 32 off) 4) = .next { s with env.emitted := .readData r v false :: s.env.emitted }
      ∧ RegisterShows s off v ∧ v = s.readReg off

/-- spec/70_reset_and_hazards.md R551, R561: the soft reset sets every field to its power-on value but the read in flight and the
contents of the buffers, so that `STATUS` reads at most `DMA_BUSY`; a read in flight becomes stale (log 26). The run's own fields stay
(log 17). -/
def Obligations.SoftResetKeepsTheReadInFlight : Prop :=
  ∀ (s : State) (v : Word), v.getLsbD 1 = true →
    ∃ t, s.runTurn (.hostWrite 0x04 4 v) = .next t
      ∧ t = { State.powerOn s.cfg with dma := { s.dma with stale := s.dma.busy }, mem := s.mem, disk := s.disk, env := s.env }
      ∧ SameMemory s t ∧ t.readReg 0x08 = if s.dma.busy = true then 0x00000100 else 0

/-- spec/60_exceptions.md R505, R506: a desync reset counts and records its cause, returns DEC to INIT, clears the pipeline, the
display and the slots not given, and keeps the controls, the stream selection, the counters, the read in flight (stale from then on,
R561, log 26) and the buffers; no row is visible after it. -/
def Obligations.DesyncResetClearsThePipeline : Prop :=
  ∀ (s : State) (c : Event), c = .desyncRow ∨ c = .desyncUnderrun →
    ∃ t, t = s.desyncReset c
      ∧ t.ev.desyncCount.toNat = (s.ev.desyncCount.toNat + 1) % 2 ^ 32
      ∧ t.ev.cause = (if c = .desyncRow then 1 else 2) ∧ t.ev.subcause = 0
      ∧ (∀ i < 6, t.ev.irqStatus.getLsbD i = (s.ev.irqStatus.getLsbD i || i == 0))
      ∧ t.ev.irqEnable = s.ev.irqEnable ∧ t.ev.fmtErrCount = s.ev.fmtErrCount
      ∧ t.fsm = { state := .init, initPhase := false, en := s.fsm.en }
      ∧ t.win = { validFrom := 0, validTo := 0, displayStart := 0, plannedTo := 0 }
      ∧ t.cur = { s.cur with writeOff := 0, frameRingBase := 0, fetchSec := 0, doneWords := 0, rowsPlanned := 0 }
      ∧ t.rt.length = s.cfg.rowSlots ∧ (∀ e ∈ t.rt, e = 0)
      ∧ t.hdrValid = false ∧ t.next = FrameRec.none ∧ t.disp = FrameRec.none ∧ t.decShown = false
      ∧ t.dsp = { showing := false, armed := false, holdCtr := 0, pos0 := 0, pos1 := 0 }
      ∧ (∀ k, (s.slot k).given = true → t.slot k = s.slot k)
      ∧ (∀ k, (s.slot k).given = false → t.slot k = AudioSlot.none)
      ∧ t.ovr = { s.ovr with valid := false } ∧ t.ctl = { s.ctl with stepPending := false }
      ∧ t.seq = { curSector := 0, nextSector := 0, searchCtr := 0, terminal := false }
      ∧ t.strm = s.strm ∧ t.hdr = s.hdr ∧ t.dma = { s.dma with stale := s.dma.busy } ∧ t.mem = s.mem
      ∧ t.cfg = s.cfg ∧ t.disk = s.disk ∧ t.env = s.env
      ∧ ∀ row, ¬RowVisible t row

/-! ## Invariants every step keeps -/

/-- The buffers keep the canonical form of the model's byte storage (log 4: a list of the written bytes, addresses strictly rising),
whatever step any agent takes. -/
def Obligations.MemoryStaysCanonical : Prop :=
  ∀ s t : State, Memory.wf s.mem = true → step s = .next t → Memory.wf t.mem = true

/-- spec/41_decoder_fsm.md R298: a read is outstanding only in a state that polls for it. -/
def Obligations.OutstandingReadIsPolled : Prop :=
  ∀ s t : State, ReadPolled s → step s = .next t → ReadPolled t

/-- spec/10_state.md R36, R46, spec/43_display_sync.md R402: no speed outside -16..3 is ever held, and every entry of the row-offset
table stays a byte offset inside RING. -/
def Obligations.SpeedsAndRowOffsetsStayInRange : Prop :=
  (∀ s t : State, SpeedsLegal s → step s = .next t → SpeedsLegal t)
  ∧ ∀ s t : State, RowTableOk s → step s = .next t → RowTableOk t

/-- spec/43_display_sync.md R413, spec/42_sg_planner.md R350, R361, spec/10_state.md R50 (as log 25 reads it): the display-sync and
planner invariant, with the layout of the assigned rows in RING and the outstanding read apart from the rows of the valid window
(spec/20_memory.md R119, spec/70_reset_and_hazards.md R562), is inductive over the steps of all agents. -/
def Obligations.SyncContractIsKept : Prop :=
  ∀ s t : State, SyncInv s → step s = .next t → SyncInv t

/-- The invariants hold after power-on reset of every legal block, and in the model's reset state (whose parameters are the
model's choice, log 1). -/
def Obligations.InvariantsHoldAtReset : Prop :=
  (∀ p : Params, Memory.wf (State.powerOn p).mem = true ∧ ReadPolled (State.powerOn p) ∧ SpeedsLegal (State.powerOn p)
    ∧ RowTableOk (State.powerOn p) ∧ SyncInv (State.powerOn p))
  ∧ SyncInv State.reset

/-- spec/43_display_sync.md R413 (3), (5), (6) and spec/10_state.md R50: what the invariant says of the indices: while a frame is
shown its unreleased rows are visible, its released rows are fewer than `ROWS`, the next frame's rows follow it, and the assigned
slots never exceed the budget. R50's clause `dist(display_start, valid_to) >= ROWS` is left to the visible rows: taken modulo
`P_ROW_SLOTS` it fails in R414 step 5 (log 25). -/
def Obligations.SyncContractGivesTheWindow : Prop :=
  ∀ s : State, SyncInv s →
    distN s.cfg.rowSlots s.win.validFrom.toNat s.win.validTo.toNat
        ≤ distN s.cfg.rowSlots s.win.validFrom.toNat s.win.plannedTo.toNat
    ∧ distN s.cfg.rowSlots s.win.validFrom.toNat s.win.plannedTo.toNat ≤ s.cfg.rowSlots - 1
    ∧ (s.dsp.showing = true →
      distN s.cfg.rowSlots s.win.displayStart.toNat s.win.validFrom.toNat ≤ s.cfg.rows - 1
      ∧ (∀ row, distN s.cfg.rowSlots s.win.displayStart.toNat s.win.validFrom.toNat ≤ row → row < s.cfg.rows →
          RowVisible s row)
      ∧ (s.next.valid = true →
          s.next.startSlot.toNat = addN s.cfg.rowSlots s.win.displayStart.toNat s.cfg.rows))

/-- spec/43_display_sync.md R413 (1), (2): in every step `valid_from` moves forward, never past `valid_to`, and `valid_to` forward,
never past the planned end, unless the step resets. -/
def Obligations.IndicesMoveForward : Prop :=
  ∀ s t : State, SyncInv s → step s = .next t →
    (t.fsm.state = .init ∧ t.win = { validFrom := 0, validTo := 0, displayStart := 0, plannedTo := 0 }
        ∧ t.dsp.showing = false)
    ∨ (distN s.cfg.rowSlots s.win.validFrom.toNat t.win.validFrom.toNat
          ≤ distN s.cfg.rowSlots s.win.validFrom.toNat s.win.validTo.toNat
      ∧ distN s.cfg.rowSlots s.win.validTo.toNat t.win.validTo.toNat
          ≤ distN s.cfg.rowSlots s.win.validTo.toNat s.win.plannedTo.toNat)

/-- spec/10_state.md R31, R46: `S.state` is written by DEC's steps and the two resets only, and `RT` by PREPPING_VIDEO and the
two resets only: HOST's soft reset, or a display operation's desync reset, whole. -/
def Obligations.WritersOfStateAndRowTable : Prop :=
  ∀ s t : State, step s = .next t →
    (t.fsm.state ≠ s.fsm.state → (s.nextTurn = .dec ∧ s.fsm.en = true) ∨ ResetBy s t)
    ∧ (t.rt ≠ s.rt → (s.nextTurn = .dec ∧ s.fsm.en = true ∧ s.fsm.state = .preppingVideo) ∨ ResetBy s t)
end

