-- ==== Sys2Proof/Laws/Memory.lean ====
section
/-! SUPPORT. What byte storage does: a write reads back, leaves every other byte, and keeps the canonical form. -/

namespace Sys2Proof.Machine

theorem Memory.read?_append (m n : Mem) (a : Nat) :
    Memory.read? (m ++ n) a = (Memory.read? m a).or (Memory.read? n a) := by
  induction m with
  | nil => simp [Memory.read?]
  | cons c m ih =>
    obtain ⟨k, v⟩ := c
    by_cases h : a = k <;> simp [Memory.read?, h, ih]

theorem Memory.read?_filter (m : Mem) (p : Nat → Bool) (a : Nat) :
    Memory.read? (m.filter fun c => p c.1) a = if p a then Memory.read? m a else none := by
  induction m with
  | nil => simp [Memory.read?]
  | cons c m ih =>
    obtain ⟨k, v⟩ := c
    by_cases hk : p k = true <;> by_cases h : a = k <;> simp_all [Memory.read?]

theorem Memory.read?_cells (bs : List Byte) (a b : Nat) :
    Memory.read? (Memory.cells a bs) b = if a ≤ b then bs[b - a]? else none := by
  induction bs generalizing a with
  | nil => simp [Memory.cells, Memory.read?]
  | cons x bs ih =>
    simp only [Memory.cells, Memory.read?, ih]
    by_cases h : b = a
    · simp [h]
    · by_cases h2 : a ≤ b
      · rw [if_neg h, if_pos (by omega), if_pos h2, show b - a = (b - (a + 1)) + 1 by omega,
          List.getElem?_cons_succ]
      · rw [if_neg h, if_neg (by omega), if_neg h2]

/-- What a byte reads after a write: the written byte inside the written range, what it read before elsewhere. -/
theorem Memory.read?_write (m : Mem) (a b : Nat) (bs : List Byte) :
    Memory.read? (Memory.write m a bs) b =
      if a ≤ b ∧ b < a + bs.length then bs[b - a]? else Memory.read? m b := by
  unfold Memory.write
  rw [Memory.read?_append, Memory.read?_append, Memory.read?_cells,
    Memory.read?_filter m (fun k => decide (k < a)), Memory.read?_filter m (fun k => decide (a + bs.length ≤ k))]
  by_cases h1 : b < a
  · simp [h1, show ¬a ≤ b by omega, show ¬a + bs.length ≤ b by omega]
  · by_cases h2 : b < a + bs.length
    · simp [h1, h2, show a ≤ b by omega, show ¬a + bs.length ≤ b by omega]
    · have : bs[b - a]? = none := List.getElem?_eq_none (by omega)
      simp [h1, h2, show a ≤ b by omega, show a + bs.length ≤ b by omega, this]

theorem Memory.wf_iff (m : Mem) : Memory.wf m = true ↔ m.Pairwise fun c d => c.1 < d.1 := by
  induction m with
  | nil => simp [Memory.wf]
  | cons c m ih =>
    cases m with
    | nil => simp [Memory.wf]
    | cons d m =>
      rw [Memory.wf, Bool.and_eq_true, ih, List.pairwise_cons (a := c)]
      simp only [decide_eq_true_eq]
      constructor
      · rintro ⟨hcd, hp⟩
        refine ⟨?_, hp⟩
        intro e he
        rcases List.mem_cons.1 he with rfl | he
        · exact hcd
        · exact hcd.trans ((List.pairwise_cons.1 hp).1 e he)
      · rintro ⟨hc, hp⟩
        exact ⟨hc d (by simp), hp⟩

theorem Memory.mem_cells (bs : List Byte) (a : Nat) (c : Host.Cell) (h : c ∈ Memory.cells a bs) :
    a ≤ c.1 ∧ c.1 < a + bs.length := by
  induction bs generalizing a with
  | nil => simp [Memory.cells] at h
  | cons x bs ih =>
    rcases List.mem_cons.1 h with rfl | h
    · simp
    · have := ih (a + 1) h
      simp only [List.length_cons]
      omega

theorem Memory.cells_pairwise (bs : List Byte) (a : Nat) :
    (Memory.cells a bs).Pairwise fun c d => c.1 < d.1 := by
  induction bs generalizing a with
  | nil => simp [Memory.cells]
  | cons x bs ih =>
    refine List.pairwise_cons.2 ⟨fun d hd => ?_, ih (a + 1)⟩
    have := Memory.mem_cells bs (a + 1) d hd
    exact Nat.lt_of_lt_of_le (Nat.lt_succ_self a) this.1

/-- A write keeps the canonical form. -/
theorem Memory.write_wf (m : Mem) (a : Nat) (bs : List Byte) (h : Memory.wf m = true) :
    Memory.wf (Memory.write m a bs) = true := by
  rw [Memory.wf_iff] at h ⊢
  unfold Memory.write
  rw [List.pairwise_append, List.pairwise_append]
  refine ⟨⟨h.filter _, Memory.cells_pairwise bs a, ?_⟩, h.filter _, ?_⟩
  · intro c hc d hd
    have h1 := (List.mem_filter.1 hc).2
    have h2 := Memory.mem_cells bs a d hd
    simp only [decide_eq_true_eq] at h1
    omega
  · intro c hc d hd
    have h2 := (List.mem_filter.1 hd).2
    simp only [decide_eq_true_eq] at h2
    rcases List.mem_append.1 hc with hc | hc
    · have h1 := (List.mem_filter.1 hc).2
      simp only [decide_eq_true_eq] at h1
      omega
    · have h1 := Memory.mem_cells bs a c hc
      omega

end Sys2Proof.Machine
end

