-- ==== Sys2Proof/Laws/State.lean ====
section
/-! SUPPORT. What each named update of the state leaves in each field: true by rfl, so that no proof unfolds a record update. -/

namespace Sys2Proof.Machine

/-! ## `State.emit` -/

@[simp] theorem State.emit_cfg (s : State) (o : Output) : (s.emit o).cfg = s.cfg := rfl
@[simp] theorem State.emit_disk (s : State) (o : Output) : (s.emit o).disk = s.disk := rfl
@[simp] theorem State.emit_fsm (s : State) (o : Output) : (s.emit o).fsm = s.fsm := rfl
@[simp] theorem State.emit_ctl (s : State) (o : Output) : (s.emit o).ctl = s.ctl := rfl
@[simp] theorem State.emit_ovr (s : State) (o : Output) : (s.emit o).ovr = s.ovr := rfl
@[simp] theorem State.emit_strm (s : State) (o : Output) : (s.emit o).strm = s.strm := rfl
@[simp] theorem State.emit_seq (s : State) (o : Output) : (s.emit o).seq = s.seq := rfl
@[simp] theorem State.emit_hdrValid (s : State) (o : Output) : (s.emit o).hdrValid = s.hdrValid := rfl
@[simp] theorem State.emit_hdr (s : State) (o : Output) : (s.emit o).hdr = s.hdr := rfl
@[simp] theorem State.emit_cur (s : State) (o : Output) : (s.emit o).cur = s.cur := rfl
@[simp] theorem State.emit_rt (s : State) (o : Output) : (s.emit o).rt = s.rt := rfl
@[simp] theorem State.emit_win (s : State) (o : Output) : (s.emit o).win = s.win := rfl
@[simp] theorem State.emit_next (s : State) (o : Output) : (s.emit o).next = s.next := rfl
@[simp] theorem State.emit_disp (s : State) (o : Output) : (s.emit o).disp = s.disp := rfl
@[simp] theorem State.emit_decShown (s : State) (o : Output) : (s.emit o).decShown = s.decShown := rfl
@[simp] theorem State.emit_dsp (s : State) (o : Output) : (s.emit o).dsp = s.dsp := rfl
@[simp] theorem State.emit_slot0 (s : State) (o : Output) : (s.emit o).slot0 = s.slot0 := rfl
@[simp] theorem State.emit_slot1 (s : State) (o : Output) : (s.emit o).slot1 = s.slot1 := rfl
@[simp] theorem State.emit_dma (s : State) (o : Output) : (s.emit o).dma = s.dma := rfl
@[simp] theorem State.emit_ev (s : State) (o : Output) : (s.emit o).ev = s.ev := rfl
@[simp] theorem State.emit_mem (s : State) (o : Output) : (s.emit o).mem = s.mem := rfl
@[simp] theorem State.emit_env (s : State) (o : Output) :
    (s.emit o).env = { s.env with emitted := o :: s.env.emitted } := rfl

/-! ## `State.respond` -/

@[simp] theorem State.respond_cfg (s : State) (w : Word) : (s.respond w).cfg = s.cfg := rfl
@[simp] theorem State.respond_disk (s : State) (w : Word) : (s.respond w).disk = s.disk := rfl
@[simp] theorem State.respond_fsm (s : State) (w : Word) : (s.respond w).fsm = s.fsm := rfl
@[simp] theorem State.respond_ctl (s : State) (w : Word) : (s.respond w).ctl = s.ctl := rfl
@[simp] theorem State.respond_ovr (s : State) (w : Word) : (s.respond w).ovr = s.ovr := rfl
@[simp] theorem State.respond_strm (s : State) (w : Word) : (s.respond w).strm = s.strm := rfl
@[simp] theorem State.respond_seq (s : State) (w : Word) : (s.respond w).seq = s.seq := rfl
@[simp] theorem State.respond_hdrValid (s : State) (w : Word) : (s.respond w).hdrValid = s.hdrValid := rfl
@[simp] theorem State.respond_hdr (s : State) (w : Word) : (s.respond w).hdr = s.hdr := rfl
@[simp] theorem State.respond_cur (s : State) (w : Word) : (s.respond w).cur = s.cur := rfl
@[simp] theorem State.respond_rt (s : State) (w : Word) : (s.respond w).rt = s.rt := rfl
@[simp] theorem State.respond_win (s : State) (w : Word) : (s.respond w).win = s.win := rfl
@[simp] theorem State.respond_next (s : State) (w : Word) : (s.respond w).next = s.next := rfl
@[simp] theorem State.respond_disp (s : State) (w : Word) : (s.respond w).disp = s.disp := rfl
@[simp] theorem State.respond_decShown (s : State) (w : Word) : (s.respond w).decShown = s.decShown := rfl
@[simp] theorem State.respond_dsp (s : State) (w : Word) : (s.respond w).dsp = s.dsp := rfl
@[simp] theorem State.respond_slot0 (s : State) (w : Word) : (s.respond w).slot0 = s.slot0 := rfl
@[simp] theorem State.respond_slot1 (s : State) (w : Word) : (s.respond w).slot1 = s.slot1 := rfl
@[simp] theorem State.respond_dma (s : State) (w : Word) : (s.respond w).dma = s.dma := rfl
@[simp] theorem State.respond_ev (s : State) (w : Word) : (s.respond w).ev = s.ev := rfl
@[simp] theorem State.respond_mem (s : State) (w : Word) : (s.respond w).mem = s.mem := rfl
@[simp] theorem State.respond_env (s : State) (w : Word) :
    (s.respond w).env = { s.env with emitted := .response s.env.caller w :: s.env.emitted } := rfl

/-! ## `State.raise` -/

@[simp] theorem State.raise_cfg (s : State) (e : Event) : (s.raise e).cfg = s.cfg := rfl
@[simp] theorem State.raise_disk (s : State) (e : Event) : (s.raise e).disk = s.disk := rfl
@[simp] theorem State.raise_fsm (s : State) (e : Event) : (s.raise e).fsm = s.fsm := rfl
@[simp] theorem State.raise_ctl (s : State) (e : Event) : (s.raise e).ctl = s.ctl := rfl
@[simp] theorem State.raise_ovr (s : State) (e : Event) : (s.raise e).ovr = s.ovr := rfl
@[simp] theorem State.raise_strm (s : State) (e : Event) : (s.raise e).strm = s.strm := rfl
@[simp] theorem State.raise_seq (s : State) (e : Event) : (s.raise e).seq = s.seq := rfl
@[simp] theorem State.raise_hdrValid (s : State) (e : Event) : (s.raise e).hdrValid = s.hdrValid := rfl
@[simp] theorem State.raise_hdr (s : State) (e : Event) : (s.raise e).hdr = s.hdr := rfl
@[simp] theorem State.raise_cur (s : State) (e : Event) : (s.raise e).cur = s.cur := rfl
@[simp] theorem State.raise_rt (s : State) (e : Event) : (s.raise e).rt = s.rt := rfl
@[simp] theorem State.raise_win (s : State) (e : Event) : (s.raise e).win = s.win := rfl
@[simp] theorem State.raise_next (s : State) (e : Event) : (s.raise e).next = s.next := rfl
@[simp] theorem State.raise_disp (s : State) (e : Event) : (s.raise e).disp = s.disp := rfl
@[simp] theorem State.raise_decShown (s : State) (e : Event) : (s.raise e).decShown = s.decShown := rfl
@[simp] theorem State.raise_dsp (s : State) (e : Event) : (s.raise e).dsp = s.dsp := rfl
@[simp] theorem State.raise_slot0 (s : State) (e : Event) : (s.raise e).slot0 = s.slot0 := rfl
@[simp] theorem State.raise_slot1 (s : State) (e : Event) : (s.raise e).slot1 = s.slot1 := rfl
@[simp] theorem State.raise_dma (s : State) (e : Event) : (s.raise e).dma = s.dma := rfl
@[simp] theorem State.raise_ev (s : State) (e : Event) : (s.raise e).ev = e.record s.ev := rfl
@[simp] theorem State.raise_mem (s : State) (e : Event) : (s.raise e).mem = s.mem := rfl
@[simp] theorem State.raise_env (s : State) (e : Event) : (s.raise e).env = s.env := rfl

/-! ## `State.goto` -/

@[simp] theorem State.goto_cfg (s : State) (st : DecState) : (s.goto st).cfg = s.cfg := rfl
@[simp] theorem State.goto_disk (s : State) (st : DecState) : (s.goto st).disk = s.disk := rfl
@[simp] theorem State.goto_fsm (s : State) (st : DecState) : (s.goto st).fsm = { s.fsm with state := st } := rfl
@[simp] theorem State.goto_ctl (s : State) (st : DecState) : (s.goto st).ctl = s.ctl := rfl
@[simp] theorem State.goto_ovr (s : State) (st : DecState) : (s.goto st).ovr = s.ovr := rfl
@[simp] theorem State.goto_strm (s : State) (st : DecState) : (s.goto st).strm = s.strm := rfl
@[simp] theorem State.goto_seq (s : State) (st : DecState) : (s.goto st).seq = s.seq := rfl
@[simp] theorem State.goto_hdrValid (s : State) (st : DecState) : (s.goto st).hdrValid = s.hdrValid := rfl
@[simp] theorem State.goto_hdr (s : State) (st : DecState) : (s.goto st).hdr = s.hdr := rfl
@[simp] theorem State.goto_cur (s : State) (st : DecState) : (s.goto st).cur = s.cur := rfl
@[simp] theorem State.goto_rt (s : State) (st : DecState) : (s.goto st).rt = s.rt := rfl
@[simp] theorem State.goto_win (s : State) (st : DecState) : (s.goto st).win = s.win := rfl
@[simp] theorem State.goto_next (s : State) (st : DecState) : (s.goto st).next = s.next := rfl
@[simp] theorem State.goto_disp (s : State) (st : DecState) : (s.goto st).disp = s.disp := rfl
@[simp] theorem State.goto_decShown (s : State) (st : DecState) : (s.goto st).decShown = s.decShown := rfl
@[simp] theorem State.goto_dsp (s : State) (st : DecState) : (s.goto st).dsp = s.dsp := rfl
@[simp] theorem State.goto_slot0 (s : State) (st : DecState) : (s.goto st).slot0 = s.slot0 := rfl
@[simp] theorem State.goto_slot1 (s : State) (st : DecState) : (s.goto st).slot1 = s.slot1 := rfl
@[simp] theorem State.goto_dma (s : State) (st : DecState) : (s.goto st).dma = s.dma := rfl
@[simp] theorem State.goto_ev (s : State) (st : DecState) : (s.goto st).ev = s.ev := rfl
@[simp] theorem State.goto_mem (s : State) (st : DecState) : (s.goto st).mem = s.mem := rfl
@[simp] theorem State.goto_env (s : State) (st : DecState) : (s.goto st).env = s.env := rfl

/-! ## `State.setSlot` -/

@[simp] theorem State.setSlot_cfg (s : State) (k : Fin 2) (v : AudioSlot) : (s.setSlot k v).cfg = s.cfg := rfl
@[simp] theorem State.setSlot_disk (s : State) (k : Fin 2) (v : AudioSlot) : (s.setSlot k v).disk = s.disk := rfl
@[simp] theorem State.setSlot_fsm (s : State) (k : Fin 2) (v : AudioSlot) : (s.setSlot k v).fsm = s.fsm := rfl
@[simp] theorem State.setSlot_ctl (s : State) (k : Fin 2) (v : AudioSlot) : (s.setSlot k v).ctl = s.ctl := rfl
@[simp] theorem State.setSlot_ovr (s : State) (k : Fin 2) (v : AudioSlot) : (s.setSlot k v).ovr = s.ovr := rfl
@[simp] theorem State.setSlot_strm (s : State) (k : Fin 2) (v : AudioSlot) : (s.setSlot k v).strm = s.strm := rfl
@[simp] theorem State.setSlot_seq (s : State) (k : Fin 2) (v : AudioSlot) : (s.setSlot k v).seq = s.seq := rfl
@[simp] theorem State.setSlot_hdrValid (s : State) (k : Fin 2) (v : AudioSlot) : (s.setSlot k v).hdrValid = s.hdrValid := rfl
@[simp] theorem State.setSlot_hdr (s : State) (k : Fin 2) (v : AudioSlot) : (s.setSlot k v).hdr = s.hdr := rfl
@[simp] theorem State.setSlot_cur (s : State) (k : Fin 2) (v : AudioSlot) : (s.setSlot k v).cur = s.cur := rfl
@[simp] theorem State.setSlot_rt (s : State) (k : Fin 2) (v : AudioSlot) : (s.setSlot k v).rt = s.rt := rfl
@[simp] theorem State.setSlot_win (s : State) (k : Fin 2) (v : AudioSlot) : (s.setSlot k v).win = s.win := rfl
@[simp] theorem State.setSlot_next (s : State) (k : Fin 2) (v : AudioSlot) : (s.setSlot k v).next = s.next := rfl
@[simp] theorem State.setSlot_disp (s : State) (k : Fin 2) (v : AudioSlot) : (s.setSlot k v).disp = s.disp := rfl
@[simp] theorem State.setSlot_decShown (s : State) (k : Fin 2) (v : AudioSlot) : (s.setSlot k v).decShown = s.decShown := rfl
@[simp] theorem State.setSlot_dsp (s : State) (k : Fin 2) (v : AudioSlot) : (s.setSlot k v).dsp = s.dsp := rfl
@[simp] theorem State.setSlot_slot0 (s : State) (k : Fin 2) (v : AudioSlot) :
    (s.setSlot k v).slot0 = if k = 0 then v else s.slot0 := rfl
@[simp] theorem State.setSlot_slot1 (s : State) (k : Fin 2) (v : AudioSlot) :
    (s.setSlot k v).slot1 = if k = 0 then s.slot1 else v := rfl
@[simp] theorem State.setSlot_dma (s : State) (k : Fin 2) (v : AudioSlot) : (s.setSlot k v).dma = s.dma := rfl
@[simp] theorem State.setSlot_ev (s : State) (k : Fin 2) (v : AudioSlot) : (s.setSlot k v).ev = s.ev := rfl
@[simp] theorem State.setSlot_mem (s : State) (k : Fin 2) (v : AudioSlot) : (s.setSlot k v).mem = s.mem := rfl
@[simp] theorem State.setSlot_env (s : State) (k : Fin 2) (v : AudioSlot) : (s.setSlot k v).env = s.env := rfl

/-! ## `State.setPos` -/

@[simp] theorem State.setPos_cfg (s : State) (c : Fin 2) (t : Half) : (s.setPos c t).cfg = s.cfg := rfl
@[simp] theorem State.setPos_disk (s : State) (c : Fin 2) (t : Half) : (s.setPos c t).disk = s.disk := rfl
@[simp] theorem State.setPos_fsm (s : State) (c : Fin 2) (t : Half) : (s.setPos c t).fsm = s.fsm := rfl
@[simp] theorem State.setPos_ctl (s : State) (c : Fin 2) (t : Half) : (s.setPos c t).ctl = s.ctl := rfl
@[simp] theorem State.setPos_ovr (s : State) (c : Fin 2) (t : Half) : (s.setPos c t).ovr = s.ovr := rfl
@[simp] theorem State.setPos_strm (s : State) (c : Fin 2) (t : Half) : (s.setPos c t).strm = s.strm := rfl
@[simp] theorem State.setPos_seq (s : State) (c : Fin 2) (t : Half) : (s.setPos c t).seq = s.seq := rfl
@[simp] theorem State.setPos_hdrValid (s : State) (c : Fin 2) (t : Half) : (s.setPos c t).hdrValid = s.hdrValid := rfl
@[simp] theorem State.setPos_hdr (s : State) (c : Fin 2) (t : Half) : (s.setPos c t).hdr = s.hdr := rfl
@[simp] theorem State.setPos_cur (s : State) (c : Fin 2) (t : Half) : (s.setPos c t).cur = s.cur := rfl
@[simp] theorem State.setPos_rt (s : State) (c : Fin 2) (t : Half) : (s.setPos c t).rt = s.rt := rfl
@[simp] theorem State.setPos_win (s : State) (c : Fin 2) (t : Half) : (s.setPos c t).win = s.win := rfl
@[simp] theorem State.setPos_next (s : State) (c : Fin 2) (t : Half) : (s.setPos c t).next = s.next := rfl
@[simp] theorem State.setPos_disp (s : State) (c : Fin 2) (t : Half) : (s.setPos c t).disp = s.disp := rfl
@[simp] theorem State.setPos_decShown (s : State) (c : Fin 2) (t : Half) : (s.setPos c t).decShown = s.decShown := rfl
@[simp] theorem State.setPos_dsp (s : State) (c : Fin 2) (t : Half) :
    (s.setPos c t).dsp = { s.dsp with pos0 := if c = 0 then t else s.dsp.pos0, pos1 := if c = 0 then s.dsp.pos1 else t } := rfl
@[simp] theorem State.setPos_slot0 (s : State) (c : Fin 2) (t : Half) : (s.setPos c t).slot0 = s.slot0 := rfl
@[simp] theorem State.setPos_slot1 (s : State) (c : Fin 2) (t : Half) : (s.setPos c t).slot1 = s.slot1 := rfl
@[simp] theorem State.setPos_dma (s : State) (c : Fin 2) (t : Half) : (s.setPos c t).dma = s.dma := rfl
@[simp] theorem State.setPos_ev (s : State) (c : Fin 2) (t : Half) : (s.setPos c t).ev = s.ev := rfl
@[simp] theorem State.setPos_mem (s : State) (c : Fin 2) (t : Half) : (s.setPos c t).mem = s.mem := rfl
@[simp] theorem State.setPos_env (s : State) (c : Fin 2) (t : Half) : (s.setPos c t).env = s.env := rfl

/-! ## `State.setFrame` -/

@[simp] theorem State.setFrame_cfg (s : State) (f : FrameRec) : (s.setFrame f).cfg = s.cfg := rfl
@[simp] theorem State.setFrame_disk (s : State) (f : FrameRec) : (s.setFrame f).disk = s.disk := rfl
@[simp] theorem State.setFrame_fsm (s : State) (f : FrameRec) : (s.setFrame f).fsm = s.fsm := rfl
@[simp] theorem State.setFrame_ctl (s : State) (f : FrameRec) : (s.setFrame f).ctl = s.ctl := rfl
@[simp] theorem State.setFrame_ovr (s : State) (f : FrameRec) : (s.setFrame f).ovr = s.ovr := rfl
@[simp] theorem State.setFrame_strm (s : State) (f : FrameRec) : (s.setFrame f).strm = s.strm := rfl
@[simp] theorem State.setFrame_seq (s : State) (f : FrameRec) : (s.setFrame f).seq = s.seq := rfl
@[simp] theorem State.setFrame_hdrValid (s : State) (f : FrameRec) : (s.setFrame f).hdrValid = s.hdrValid := rfl
@[simp] theorem State.setFrame_hdr (s : State) (f : FrameRec) : (s.setFrame f).hdr = s.hdr := rfl
@[simp] theorem State.setFrame_cur (s : State) (f : FrameRec) : (s.setFrame f).cur = s.cur := rfl
@[simp] theorem State.setFrame_rt (s : State) (f : FrameRec) : (s.setFrame f).rt = s.rt := rfl
@[simp] theorem State.setFrame_win (s : State) (f : FrameRec) : (s.setFrame f).win = s.win := rfl
@[simp] theorem State.setFrame_next (s : State) (f : FrameRec) :
    (s.setFrame f).next = if s.decShown then s.next else f := rfl
@[simp] theorem State.setFrame_disp (s : State) (f : FrameRec) :
    (s.setFrame f).disp = if s.decShown then f else s.disp := rfl
@[simp] theorem State.setFrame_decShown (s : State) (f : FrameRec) : (s.setFrame f).decShown = s.decShown := rfl
@[simp] theorem State.setFrame_dsp (s : State) (f : FrameRec) : (s.setFrame f).dsp = s.dsp := rfl
@[simp] theorem State.setFrame_slot0 (s : State) (f : FrameRec) : (s.setFrame f).slot0 = s.slot0 := rfl
@[simp] theorem State.setFrame_slot1 (s : State) (f : FrameRec) : (s.setFrame f).slot1 = s.slot1 := rfl
@[simp] theorem State.setFrame_dma (s : State) (f : FrameRec) : (s.setFrame f).dma = s.dma := rfl
@[simp] theorem State.setFrame_ev (s : State) (f : FrameRec) : (s.setFrame f).ev = s.ev := rfl
@[simp] theorem State.setFrame_mem (s : State) (f : FrameRec) : (s.setFrame f).mem = s.mem := rfl
@[simp] theorem State.setFrame_env (s : State) (f : FrameRec) : (s.setFrame f).env = s.env := rfl

/-! ## `State.issue` -/

@[simp] theorem State.issue_cfg (s : State) (l : Word) (n : Nat) (fs : List Frag) : (s.issue l n fs).cfg = s.cfg := rfl
@[simp] theorem State.issue_disk (s : State) (l : Word) (n : Nat) (fs : List Frag) : (s.issue l n fs).disk = s.disk := rfl
@[simp] theorem State.issue_fsm (s : State) (l : Word) (n : Nat) (fs : List Frag) : (s.issue l n fs).fsm = s.fsm := rfl
@[simp] theorem State.issue_ctl (s : State) (l : Word) (n : Nat) (fs : List Frag) : (s.issue l n fs).ctl = s.ctl := rfl
@[simp] theorem State.issue_ovr (s : State) (l : Word) (n : Nat) (fs : List Frag) : (s.issue l n fs).ovr = s.ovr := rfl
@[simp] theorem State.issue_strm (s : State) (l : Word) (n : Nat) (fs : List Frag) : (s.issue l n fs).strm = s.strm := rfl
@[simp] theorem State.issue_seq (s : State) (l : Word) (n : Nat) (fs : List Frag) : (s.issue l n fs).seq = s.seq := rfl
@[simp] theorem State.issue_hdrValid (s : State) (l : Word) (n : Nat) (fs : List Frag) :
    (s.issue l n fs).hdrValid = s.hdrValid := rfl
@[simp] theorem State.issue_hdr (s : State) (l : Word) (n : Nat) (fs : List Frag) : (s.issue l n fs).hdr = s.hdr := rfl
@[simp] theorem State.issue_cur (s : State) (l : Word) (n : Nat) (fs : List Frag) : (s.issue l n fs).cur = s.cur := rfl
@[simp] theorem State.issue_rt (s : State) (l : Word) (n : Nat) (fs : List Frag) : (s.issue l n fs).rt = s.rt := rfl
@[simp] theorem State.issue_win (s : State) (l : Word) (n : Nat) (fs : List Frag) : (s.issue l n fs).win = s.win := rfl
@[simp] theorem State.issue_next (s : State) (l : Word) (n : Nat) (fs : List Frag) : (s.issue l n fs).next = s.next := rfl
@[simp] theorem State.issue_disp (s : State) (l : Word) (n : Nat) (fs : List Frag) : (s.issue l n fs).disp = s.disp := rfl
@[simp] theorem State.issue_decShown (s : State) (l : Word) (n : Nat) (fs : List Frag) :
    (s.issue l n fs).decShown = s.decShown := rfl
@[simp] theorem State.issue_dsp (s : State) (l : Word) (n : Nat) (fs : List Frag) : (s.issue l n fs).dsp = s.dsp := rfl
@[simp] theorem State.issue_slot0 (s : State) (l : Word) (n : Nat) (fs : List Frag) : (s.issue l n fs).slot0 = s.slot0 := rfl
@[simp] theorem State.issue_slot1 (s : State) (l : Word) (n : Nat) (fs : List Frag) : (s.issue l n fs).slot1 = s.slot1 := rfl
@[simp] theorem State.issue_dma (s : State) (l : Word) (n : Nat) (fs : List Frag) :
    (s.issue l n fs).dma = { busy := true, req := { lba := l, count := BitVec.ofNat 16 n, frags := fs }, landed := 0, stale := false } := rfl
@[simp] theorem State.issue_ev (s : State) (l : Word) (n : Nat) (fs : List Frag) : (s.issue l n fs).ev = s.ev := rfl
@[simp] theorem State.issue_mem (s : State) (l : Word) (n : Nat) (fs : List Frag) : (s.issue l n fs).mem = s.mem := rfl
@[simp] theorem State.issue_env (s : State) (l : Word) (n : Nat) (fs : List Frag) : (s.issue l n fs).env = s.env := rfl

/-! ## The two resets: what each keeps -/

@[simp] theorem Dma.afterReset_busy (d : Dma) : d.afterReset.busy = d.busy := rfl
@[simp] theorem Dma.afterReset_req (d : Dma) : d.afterReset.req = d.req := rfl
@[simp] theorem Dma.afterReset_landed (d : Dma) : d.afterReset.landed = d.landed := rfl
@[simp] theorem Dma.afterReset_stale (d : Dma) : d.afterReset.stale = d.busy := rfl

@[simp] theorem State.desyncReset_cfg (s : State) (c : Event) : (s.desyncReset c).cfg = s.cfg := rfl
@[simp] theorem State.desyncReset_disk (s : State) (c : Event) : (s.desyncReset c).disk = s.disk := rfl
@[simp] theorem State.desyncReset_strm (s : State) (c : Event) : (s.desyncReset c).strm = s.strm := rfl
@[simp] theorem State.desyncReset_hdr (s : State) (c : Event) : (s.desyncReset c).hdr = s.hdr := rfl
@[simp] theorem State.desyncReset_dma (s : State) (c : Event) : (s.desyncReset c).dma = s.dma.afterReset := rfl
@[simp] theorem State.desyncReset_mem (s : State) (c : Event) : (s.desyncReset c).mem = s.mem := rfl
@[simp] theorem State.desyncReset_env (s : State) (c : Event) : (s.desyncReset c).env = s.env := rfl

@[simp] theorem State.softReset_cfg (s : State) : s.softReset.cfg = s.cfg := rfl
@[simp] theorem State.softReset_disk (s : State) : s.softReset.disk = s.disk := rfl
@[simp] theorem State.softReset_dma (s : State) : s.softReset.dma = s.dma.afterReset := rfl
@[simp] theorem State.softReset_mem (s : State) : s.softReset.mem = s.mem := rfl
@[simp] theorem State.softReset_env (s : State) : s.softReset.env = s.env := rfl

/-! ## The audio slots and the decode frame record -/

theorem State.slot_zero (s : State) : s.slot 0 = s.slot0 := rfl

theorem State.slot_one (s : State) : s.slot 1 = s.slot1 := rfl

@[simp] theorem State.setSlot_slot (s : State) (k : Fin 2) (v : AudioSlot) : (s.setSlot k v).slot k = v := by
  unfold State.slot
  split <;> simp_all

@[simp] theorem State.setSlot_slot_other (s : State) (k : Fin 2) (v : AudioSlot) :
    (s.setSlot k v).slot (1 - k) = s.slot (1 - k) := by
  fin_cases k <;> rfl

theorem State.setSlot_slot_ne (s : State) {k j : Fin 2} (v : AudioSlot) (h : j ≠ k) :
    (s.setSlot k v).slot j = s.slot j := by
  fin_cases k <;> fin_cases j <;> simp_all [State.slot]

@[simp] theorem State.setSlot_frame (s : State) (k : Fin 2) (v : AudioSlot) : (s.setSlot k v).frame = s.frame := rfl

@[simp] theorem State.setFrame_frame (s : State) (f : FrameRec) : (s.setFrame f).frame = f := by
  unfold State.frame
  cases h : s.decShown <;> simp [h]

@[simp] theorem State.goto_slot (s : State) (st : DecState) (k : Fin 2) : (s.goto st).slot k = s.slot k := rfl

@[simp] theorem State.raise_slot (s : State) (e : Event) (k : Fin 2) : (s.raise e).slot k = s.slot k := rfl

@[simp] theorem State.emit_slot (s : State) (o : Output) (k : Fin 2) : (s.emit o).slot k = s.slot k := rfl

/-! ## Reading the buffers -/

theorem State.bufByte_congr {s t : State} (h : t.mem = s.mem) (a : Nat) : t.bufByte a = s.bufByte a := by
  unfold State.bufByte
  rw [h]

theorem State.bufWord_congr {s t : State} (h : t.mem = s.mem) (a : Nat) : t.bufWord a = s.bufWord a := by
  unfold State.bufWord
  exact congrArg (fun f => le32 f 0) (funext fun i => State.bufByte_congr h (a + i))

end Sys2Proof.Machine
end

