-- ==== Sys2Proof/Laws/Ops.lean ====
section
/-! SUPPORT. What each shared operation can do, said once: raising an event, storage, audio, the planner's loop, DEC's step, one
step of the machine. Later proofs cite these and do not unfold the operations. -/

namespace Sys2Proof.Machine

/-! ## Events -/

theorem Event.irqBit_lt (e : Event) : e.irqBit < 6 := by
  cases e <;> simp [Event.irqBit]

/-- Recording an event sets its own interrupt bit and no other. -/
theorem Event.record_irqStatus (e : Event) (v : EventState) (i : Nat) (hi : i < 6) :
    (e.record v).irqStatus.getLsbD i = (v.irqStatus.getLsbD i || i == e.irqBit) := by
  have h : ∀ b < 6, ∀ j < 6, (BitVec.ofNat 6 (2 ^ b)).getLsbD j = (j == b) := by decide
  simp only [Event.record, BitVec.getLsbD_or]
  rw [h e.irqBit e.irqBit_lt i hi]

theorem Event.record_cause (e : Event) (v : EventState) {c sub : Nat} (h : e.code = some (c, sub)) :
    (e.record v).cause = BitVec.ofNat 8 c ∧ (e.record v).subcause = BitVec.ofNat 8 sub := by
  simp [Event.record, h]

theorem Event.record_noCause (e : Event) (v : EventState) (h : e.code = none) :
    e.record v = { v with irqStatus := (e.record v).irqStatus } := by
  simp [Event.record, h]

@[simp] theorem Event.record_irqEnable (e : Event) (v : EventState) : (e.record v).irqEnable = v.irqEnable := rfl

@[simp] theorem Event.record_desyncCount (e : Event) (v : EventState) : (e.record v).desyncCount = v.desyncCount := rfl

@[simp] theorem Event.record_fmtErrCount (e : Event) (v : EventState) : (e.record v).fmtErrCount = v.fmtErrCount := rfl

/-! ## Storage -/

/-- Landing keeps the canonical form of the buffers. -/
theorem landWords_wf (src : Nat → Byte) (lo hi : Nat) (fs : List Frag) (w : Nat) (m : Mem)
    (h : Memory.wf m = true) : Memory.wf (landWords src lo hi fs w m) = true := by
  induction fs generalizing w m with
  | nil => exact h
  | cons f fs ih =>
    rw [landWords]
    apply ih
    split
    · exact h
    · exact Memory.write_wf _ _ _ h

/-- Landing leaves every byte outside the fragments' destinations. -/
theorem landWords_outside (src : Nat → Byte) (lo hi : Nat) (fs : List Frag) (w : Nat) (m : Mem) (a : Nat)
    (h : ∀ f ∈ fs, f.dest ≠ discard → a < f.dest.toNat ∨ f.dest.toNat + 4 * f.words ≤ a) :
    Memory.read? (landWords src lo hi fs w m) a = Memory.read? m a := by
  induction fs generalizing w m with
  | nil => rfl
  | cons f fs ih =>
    rw [landWords, ih _ _ fun g hg => h g (List.mem_cons_of_mem f hg)]
    split
    · rfl
    · rename_i hc
      push Not at hc
      have := h f List.mem_cons_self hc.1
      rw [Memory.read?_write, if_neg]
      simp only [List.length_map, List.length_range]
      omega

/-- `storLand` changes the buffers and its own progress counter only, and only while a read is outstanding. -/
theorem State.storLand_eq (s : State) (n : Nat) :
    s.storLand n = { s with mem := (s.storLand n).mem, dma.landed := (s.storLand n).dma.landed } := by
  unfold State.storLand
  split <;> rfl

/-- Completion changes the request's flags, and, for a stale read only, what its destinations hold. -/
theorem State.storComplete_eq (s : State) :
    s.storComplete = { s with dma := { s.dma with busy := s.storComplete.dma.busy, stale := s.storComplete.dma.stale }
                              mem := s.storComplete.mem, env.draws := s.storComplete.env.draws } := by
  unfold State.storComplete
  split
  · cases s.dma.stale <;> simp [State.leaveStale]
  · rfl

/-- A read that no reset made stale completes by the fall of `S.dma_busy` alone. -/
theorem State.storComplete_fresh (s : State) (h : s.dma.stale = false) :
    s.storComplete = { s with dma.busy := s.storComplete.dma.busy } := by
  unfold State.storComplete
  split
  · simp [h]
  · rfl

theorem State.storComplete_wf (s : State) (h : Memory.wf s.mem = true) : Memory.wf s.storComplete.mem = true := by
  unfold State.storComplete
  split
  · cases hs : s.dma.stale
    · simpa [hs] using h
    · simpa [hs, State.leaveStale] using landWords_wf _ _ _ _ _ _ h
  · exact h

/-- Completion is the fall of `S.dma_busy`. -/
theorem State.storComplete_busy (s : State) (h : s.storComplete.dma.busy = true) : s.dma.busy = true := by
  unfold State.storComplete at h
  split at h
  · simp at h
  · exact h

/-- A bus read changes the model's own environment only. -/
theorem State.busRead_eq (s : State) (r : Reader) (addr : Word) (size : Nat) :
    s.busRead r addr size =
      { s with env.draws := (s.busRead r addr size).env.draws, env.emitted := (s.busRead r addr size).env.emitted } := by
  unfold State.busRead
  split <;> rfl

/-! ## Audio -/

/-- `TryHandoff` does nothing, discards the buffer, or gives it. -/
theorem State.tryHandoff_cases (s : State) (k : Fin 2) :
    ((s.slot k).eligible = false ∧ s.tryHandoff k = s)
    ∨ ((s.slot k).eligible = true ∧ (s.ctl.paused || !(s.slot k).audible) = true
        ∧ s.tryHandoff k = s.setSlot k { s.slot k with state := .empty, shown := false })
    ∨ ((s.slot k).eligible = true ∧ (s.ctl.paused || !(s.slot k).audible) = false
        ∧ s.tryHandoff k = (s.setSlot k { s.slot k with given := true }).emit
            (.give k (BitVec.ofNat 32 (audBase k)) (s.slot k).words)) := by
  unfold State.tryHandoff
  cases (s.slot k).eligible <;> cases (s.ctl.paused || !(s.slot k).audible) <;> simp

/-- What `TryHandoff` does to the slots and to the outputs depends on the slots, `S.paused` and the outputs so far only. -/
theorem State.tryHandoff_congr {s t : State} (k : Fin 2) (hp : t.ctl.paused = s.ctl.paused) (h0 : t.slot0 = s.slot0)
    (h1 : t.slot1 = s.slot1) (he : t.env = s.env) :
    (t.tryHandoff k).slot0 = (s.tryHandoff k).slot0 ∧ (t.tryHandoff k).slot1 = (s.tryHandoff k).slot1
      ∧ (t.tryHandoff k).env = (s.tryHandoff k).env := by
  have hs : t.slot k = s.slot k := by
    unfold State.slot
    rw [h0, h1]
  unfold State.tryHandoff
  rw [hs, hp]
  split
  · split <;> simp [h0, h1, he]
  · exact ⟨h0, h1, he⟩

/-- `TryHandoff` changes the slots and the outputs only. -/
theorem State.tryHandoff_eq (s : State) (k : Fin 2) :
    ∃ a b o, s.tryHandoff k = { s with slot0 := a, slot1 := b, env.emitted := o } := by
  rcases s.tryHandoff_cases k with ⟨-, h⟩ | ⟨-, -, h⟩ | ⟨-, -, h⟩ <;> rw [h] <;> exact ⟨_, _, _, rfl⟩

/-- `PostProcess` changes the buffers only. -/
theorem State.postProcess_eq (s : State) (k : Fin 2) : s.postProcess k = { s with mem := (s.postProcess k).mem } := by
  unfold State.postProcess
  split <;> rfl

theorem State.postProcess_wf (s : State) (k : Fin 2) (h : Memory.wf s.mem = true) :
    Memory.wf (s.postProcess k).mem = true := by
  unfold State.postProcess
  split
  · exact h
  · exact Memory.write_wf _ _ _ h

/-! ## The planner -/

/-- What one turn of `Plan`'s loop makes of its variables when it takes the sector. -/
def State.planTake (s : State) (acc : PlanAcc) : PlanAcc :=
  { k := acc.k + 1
    need := acc.need + s.payload (s.cur.fetchSec.toNat + acc.k)
    wo := (acc.wo + s.payload (s.cur.fetchSec.toNat + acc.k)) % s.cfg.ringWords
    rp := s.rowsBefore (128 * (s.cur.fetchSec.toNat + acc.k) + s.payload (s.cur.fetchSec.toNat + acc.k))
    frags := acc.frags ++ sectorFrags s.cfg.ringWords acc.wo (s.payload (s.cur.fetchSec.toNat + acc.k)) }

/-- `Plan`'s loop: what holds at its start with `n` sectors still allowed, and is kept by every sector it takes (the sector is not
past the frame's end, its words and its rows fit), holds of the batch, with some number of sectors still allowed. The end of the ring
stops the loop, so a sector that is not the last one ends before it. -/
theorem State.planLoop_keeps (s : State) (free sfree : Nat) (P : Nat → PlanAcc → Prop) (n : Nat) (acc : PlanAcc)
    (h0 : P n acc)
    (hs : ∀ m a, P (m + 1) a → s.cur.fetchSec.toNat + a.k ≠ s.cur.imgSectors.toNat →
      a.need + s.payload (s.cur.fetchSec.toNat + a.k) ≤ free →
      s.rowsBefore (128 * (s.cur.fetchSec.toNat + a.k) + s.payload (s.cur.fetchSec.toNat + a.k))
        - s.cur.rowsPlanned.toNat ≤ sfree →
      a.wo + s.payload (s.cur.fetchSec.toNat + a.k) < s.cfg.ringWords → P m (s.planTake a))
    (he : ∀ m a, P (m + 1) a → s.cur.fetchSec.toNat + a.k ≠ s.cur.imgSectors.toNat →
      a.need + s.payload (s.cur.fetchSec.toNat + a.k) ≤ free →
      s.rowsBefore (128 * (s.cur.fetchSec.toNat + a.k) + s.payload (s.cur.fetchSec.toNat + a.k))
        - s.cur.rowsPlanned.toNat ≤ sfree →
      s.cfg.ringWords ≤ a.wo + s.payload (s.cur.fetchSec.toNat + a.k) → ∃ m, P m (s.planTake a)) :
    ∃ m, P m (s.planLoop free sfree n acc) := by
  induction n generalizing acc with
  | zero => exact ⟨0, h0⟩
  | succ n ih =>
    rw [State.planLoop]
    split
    · exact ⟨_, h0⟩
    · rename_i h1
      split
      · exact ⟨_, h0⟩
      · rename_i h2
        split
        · exact ⟨_, h0⟩
        · rename_i h3
          split
          · rename_i h4
            exact he n acc h0 h1 (by omega) (by omega) h4
          · rename_i h4
            exact ih _ (hs n acc h0 h1 (by omega) (by omega) (by omega))

/-- Why `Plan`'s loop ends: the batch limit, or a stop at the sector after the batch (the frame's end, too few free words, too few free
slots), or the ring's end reached by the batch. The loop's ring word runs on without wrapping while it goes. -/
theorem State.planLoop_stops (s : State) (free sfree w n : Nat) (acc : PlanAcc) (h : acc.wo = w + acc.need) :
    (s.planLoop free sfree n acc).k = acc.k + n
    ∨ s.cur.fetchSec.toNat + (s.planLoop free sfree n acc).k = s.cur.imgSectors.toNat
    ∨ free < (s.planLoop free sfree n acc).need + s.payload (s.cur.fetchSec.toNat + (s.planLoop free sfree n acc).k)
    ∨ sfree < s.rowsBefore (128 * (s.cur.fetchSec.toNat + (s.planLoop free sfree n acc).k)
        + s.payload (s.cur.fetchSec.toNat + (s.planLoop free sfree n acc).k)) - s.cur.rowsPlanned.toNat
    ∨ (acc.k < (s.planLoop free sfree n acc).k ∧ s.cfg.ringWords ≤ w + (s.planLoop free sfree n acc).need) := by
  induction n generalizing acc with
  | zero => exact .inl rfl
  | succ n ih =>
    rw [State.planLoop]
    split
    · exact .inr (.inl ‹_›)
    · split
      · exact .inr (.inr (.inl ‹_›))
      · split
        · exact .inr (.inr (.inr (.inl ‹_›)))
        · split
          · exact .inr (.inr (.inr (.inr ⟨Nat.lt_succ_self _, by simp only []; omega⟩)))
          · rename_i he
            have hm := Nat.mod_eq_of_lt (show acc.wo + s.payload (s.cur.fetchSec.toNat + acc.k) < s.cfg.ringWords by omega)
            refine (ih (s.planTake acc) (by simp only [State.planTake, hm]; omega)).imp ?_ (Or.imp_right (Or.imp_right (Or.imp_right ?_)))
            · intro hk; exact hk.trans (by simp only [State.planTake]; omega)
            · rintro ⟨hk, hr⟩; exact ⟨Nat.lt_of_succ_lt hk, hr⟩

/-! ## DEC's step and the machine's step -/

/-- DEC steps only while it is enabled, and then takes the step of its state. -/
theorem decStep_some {s t : State} (h : decStep s = some t) : s.fsm.en = true ∧ decStateStep s = some t := by
  unfold decStep at h
  split at h
  · exact ⟨‹_›, h⟩
  · cases h

theorem decStep_enabled {s : State} (h : s.fsm.en = true) : decStep s = decStateStep s := by
  simp [decStep, h]

/-- `step` is the turn that is due, run in the state with that turn taken. -/
theorem step_eq (s : State) : step s = s.turnTaken.runTurn s.nextTurn := rfl

/-- Taking a turn changes the model's own environment only. -/
theorem State.turnTaken_eq (s : State) : s.turnTaken = { s with env := s.turnTaken.env } := by
  unfold State.turnTaken
  split <;> rfl

/-- What one turn can do: what holds of the state with the turn taken, and is brought about by every step of every agent, holds
after the turn. -/
theorem State.runTurn_cases {P : State → Prop} {s t : State} {turn : Turn} (h : s.runTurn turn = .next t)
    (hold : turn = .dec → decStep s = none → P s)
    (dec : ∀ t, turn = .dec → decStep s = some t → P t)
    (writeReg : ∀ off v, P (s.writeReg off v))
    (writeError : P (s.emit .writeError))
    (run : ∀ p i w, decode p w = .instr i → p ≠ .display → ∀ t, exec i s = .next t → P t)
    (runDisplay : ∀ i w c, decode .display w = .instr i → ∀ t, exec i { s with env.caller := c } = .next t → P t)
    (illegal : ∀ sub, P (s.raise (.illegalOp sub)))
    (illegalDisplay : ∀ c sub, P ((State.raise { s with env.caller := c } (.illegalOp sub)).respond 0))
    (busRead : ∀ r addr size, P (s.busRead r addr size))
    (land : ∀ n, P (s.storLand n))
    (complete : P s.storComplete) : P t := by
  have hn : ∀ {u : State}, (Host.Outcome.next u : Host.Outcome State Fault Refusal) = .next t → P u → P t := by
    intro u hu hp
    injection hu with hu
    exact hu ▸ hp
  cases turn with
  | dec =>
    cases hd : decStep s with
    | none => exact hn (by simpa [State.runTurn, hd] using h) (hold rfl hd)
    | some u => exact hn (by simpa [State.runTurn, hd] using h) (dec u rfl hd)
  | hostWrite addr size v =>
    simp only [State.runTurn, State.hostWrite] at h
    split at h
    · split at h
      · unfold State.commandPort at h
        split at h
        · rename_i i hi
          exact run .host i v hi (by decide) t h
        · exact hn h (illegal _)
      · exact hn h (writeReg _ _)
    · exact hn h writeError
  | busRead r addr size => exact hn h (busRead r addr size)
  | display c w =>
    simp only [State.runTurn, State.displayPort] at h
    split at h
    · rename_i i hi
      exact runDisplay i w c hi t h
    · exact hn h (illegalDisplay c _)
  | audio w =>
    simp only [State.runTurn, State.audioPort] at h
    split at h
    · rename_i i hi
      exact run .audio i w hi (by decide) t h
    · exact hn h (illegal _)
  | storLand n => exact hn h (land n)
  | storComplete => exact hn h complete

end Sys2Proof.Machine
end

