-- ==== Sys2Proof/Laws/Display.lean ====
section
/-! SUPPORT. The display tests as the propositions of Sys2Proof/Safety.lean, what the display operations can do, and what no
operation word changes. -/

namespace Sys2Proof.Machine

theorem State.rowOk_iff (s : State) (t : Nat) : s.rowOk t = true ↔ RowVisible s t := by
  simp only [State.rowOk, State.inWin, inWindowN, Bool.and_eq_true, decide_eq_true_eq, and_assoc]
  rfl

theorem State.pausedEff_iff (s : State) : s.pausedEff = true ↔ PausedEff s := by
  simp [State.pausedEff, PausedEff]

theorem State.arm_iff (s : State) : s.arm = true ↔ ArmCondition s := by
  unfold State.arm ArmCondition
  rw [← State.pausedEff_iff]
  cases s.cfg.flipPolicy <;> simp [BitVec.toNat_eq, and_assoc]

theorem State.flipWindowOk_iff (s : State) : s.flipWindowOk = true ↔ FlipFits s := decide_eq_true_iff

/-- Raising `ILLEGAL_OP` changes the event registers only, as `RaisedOnly` says. -/
theorem State.raise_illegalOp (s : State) (sub : Nat) (h : sub < 256) : RaisedOnly s (s.raise (.illegalOp sub)) 6 sub 4 := by
  have hc := Event.record_cause (.illegalOp sub) s.ev (c := 6) (sub := sub) rfl
  refine ⟨rfl, ?_, ?_, fun i hi => Event.record_irqStatus _ _ i hi, rfl, rfl, rfl⟩
  · simp [hc]
  · simp [hc]; omega

/-- `Release` changes `valid_from` only. -/
theorem State.release_eq (s : State) : s.release = { s with win.validFrom := s.release.win.validFrom } := by
  unfold State.release
  split <;> rfl

/-- What a flip or a first show changes; the slots and outputs are those of the audio handoff. -/
theorem State.showNext_eq (s : State) :
    ∃ a b o, s.showNext =
      { s with
        win := { s.win with displayStart := s.next.startSlot, validFrom := s.next.startSlot }
        decShown := s.decShown || !s.next.ready
        disp := s.next
        next := FrameRec.none
        dsp := { s.dsp with holdCtr := BitVec.ofNat 8 (holdCount s.cfg s.next.speed) }
        ctl := { s.ctl with stepPending := false }
        slot0 := a, slot1 := b, env.emitted := o
        ev := Event.record .flip s.ev } := by
  unfold State.showNext State.showAudio
  simp only []
  split
  · exact ⟨_, _, _, rfl⟩
  · rename_i k _
    obtain ⟨a, b, o, h⟩ := State.tryHandoff_eq
      (State.setSlot
        { s with
          win := { s.win with displayStart := s.next.startSlot, validFrom := s.next.startSlot }
          decShown := s.decShown || !s.next.ready
          disp := s.next
          next := FrameRec.none
          dsp := { s.dsp with holdCtr := BitVec.ofNat 8 (holdCount s.cfg s.next.speed) }
          ctl := { s.ctl with stepPending := false } } k { s.slot k with shown := true }) k
    exact ⟨a, b, o, congrArg (fun u => State.raise u .flip) h⟩

/-- What no operation word changes: parameters, storage, the read in flight and the buffers; the header, the cursors, the row table
and DEC's state only by a reset to INIT, which makes the read in flight stale. -/
structure WordKeeps (s t : State) : Prop where
  cfg : t.cfg = s.cfg
  disk : t.disk = s.disk
  dma : t.dma = s.dma ∨ t.dma = s.dma.afterReset
  mem : t.mem = s.mem
  hdr : t.hdr = s.hdr
  dec : (t.fsm = s.fsm ∧ t.rt = s.rt ∧ t.cur = s.cur ∧ t.seq = s.seq)
    ∨ (t.fsm.state = .init ∧ t.fsm.en = s.fsm.en ∧ t.rt = List.replicate s.cfg.rowSlots 0)

theorem WordKeeps.show (s : State) : WordKeeps s s.showNext.endTick := by
  obtain ⟨a, b, o, h⟩ := s.showNext_eq
  rw [h]
  exact ⟨rfl, rfl, .inl rfl, rfl, rfl, .inl ⟨rfl, rfl, rfl, rfl⟩⟩

theorem exec_keeps (i : Instr) (s t : State) (h : exec i s = .next t) : WordKeeps s t := by
  have same : ∀ u : State, u.cfg = s.cfg → u.disk = s.disk → u.dma = s.dma → u.mem = s.mem → u.hdr = s.hdr → u.fsm = s.fsm →
      u.rt = s.rt → u.cur = s.cur → u.seq = s.seq → WordKeeps s u :=
    fun u h1 h2 h3 h4 h5 h6 h7 h8 h9 => ⟨h1, h2, .inl h3, h4, h5, .inl ⟨h6, h7, h8, h9⟩⟩
  have reset : ∀ c v, WordKeeps s ((s.desyncReset c).respond v) := fun _ _ => ⟨rfl, rfl, .inr rfl, rfl, rfl, .inr ⟨rfl, rfl, rfl⟩⟩
  cases i <;> simp only [exec] at h
  case setSpeed => unfold execSetSpeed at h; split at h <;> (injection h with h; subst h; exact same _ rfl rfl rfl rfl rfl rfl rfl rfl rfl)
  case dAdvance =>
    unfold execDAdvance at h
    injection h with h
    subst h
    split
    · exact same _ rfl rfl rfl rfl rfl rfl rfl rfl rfl
    · split
      · exact reset _ _
      · simp only []
        split
        · rw [State.release_eq]; exact same _ rfl rfl rfl rfl rfl rfl rfl rfl rfl
        · exact same _ rfl rfl rfl rfl rfl rfl rfl rfl rfl
  case dTick =>
    unfold execDTick at h
    injection h with h
    subst h
    split
    · split
      · exact WordKeeps.show s
      · exact ⟨rfl, rfl, .inr rfl, rfl, rfl, .inr ⟨rfl, rfl, rfl⟩⟩
    · split
      · split
        · have hs := WordKeeps.show { s with dsp.showing := true }
          exact ⟨hs.cfg, hs.disk, hs.dma, hs.mem, hs.hdr, hs.dec⟩
        · exact same _ rfl rfl rfl rfl rfl rfl rfl rfl rfl
      · split <;> exact same _ rfl rfl rfl rfl rfl rfl rfl rfl rfl
  all_goals
    injection h with h
    subst h
    first
    | exact same _ rfl rfl rfl rfl rfl rfl rfl rfl rfl
    | (split <;> exact same _ rfl rfl rfl rfl rfl rfl rfl rfl rfl)

end Sys2Proof.Machine
end

