-- ==== Sys2Proof/Laws/Encoding.lean ====
section
/-! SUPPORT. The three fields of an operation word (spec/30_encoding.md R150): a word packed from them has them, and a word is
packed from its own. -/

namespace Sys2Proof

theorem opcOf_lt (w : Word) : opcOf w < 256 := BitVec.isLt _

theorem Instr.opc_lt (i : Instr) : i.opc < 256 := by
  cases i <;> simp [Instr.opc]

/-- The fields of a word packed from three fields. -/
theorem fields_of_packed (o : Nat) (ho : o < 256) (sel : Byte) (arg : Half) (w : Word)
    (hw : w = BitVec.ofNat 32 o <<< 24 ||| sel.setWidth 32 <<< 16 ||| arg.setWidth 32) :
    opcOf w = o ∧ selOf w = sel ∧ argOf w = arg := by
  subst hw
  refine ⟨?_, ?_, ?_⟩
  · have h : BitVec.extractLsb' 24 8 (BitVec.ofNat 32 o <<< 24 ||| sel.setWidth 32 <<< 16 ||| arg.setWidth 32)
        = BitVec.ofNat 8 o := by
      ext j hj
      simp [BitVec.getElem_extractLsb', show 24 + j < 32 by omega, show ¬24 + j < 24 by omega,
        BitVec.getLsbD_of_ge sel (24 + j - 16) (by omega), BitVec.getLsbD_of_ge arg (24 + j) (by omega)]
      rw [← BitVec.getLsbD_eq_getElem, ← BitVec.getLsbD_eq_getElem, BitVec.getLsbD_ofNat, BitVec.getLsbD_ofNat]
      simp [hj, show j < 32 by omega]
    unfold opcOf
    rw [h]
    simp only [BitVec.toNat_ofNat]
    omega
  · unfold selOf
    ext j hj
    simp [BitVec.getElem_extractLsb', show 16 + j < 32 by omega, show 16 + j < 24 by omega, hj]
  · unfold argOf
    ext j hj
    simp [BitVec.getElem_extractLsb', show j < 32 by omega, show j < 24 by omega, hj]

/-- A word is packed from its own fields. -/
theorem packed_of_fields (w : Word) :
    w = BitVec.ofNat 32 (opcOf w) <<< 24 ||| (selOf w).setWidth 32 <<< 16 ||| (argOf w).setWidth 32 := by
  unfold opcOf selOf argOf
  rw [BitVec.ofNat_toNat]
  ext j hj
  by_cases h1 : j < 16
  · simp [h1, hj, BitVec.getElem_setWidth, BitVec.getLsbD_extractLsb', show j < 24 by omega]
  · by_cases h2 : j < 24
    · simp [h1, h2, hj, BitVec.getElem_setWidth, BitVec.getLsbD_extractLsb', show 16 + (j - 16) = j by omega,
        show j - 16 < 8 by omega]
    · simp [h1, h2, hj, BitVec.getElem_setWidth, BitVec.getLsbD_extractLsb', show 24 + (j - 24) = j by omega,
        show j - 24 < 8 by omega, show ¬j - 16 < 8 by omega]

/-- Words with the same fields are the same word. -/
theorem word_eq_iff (w v : Word) : w = v ↔ opcOf w = opcOf v ∧ selOf w = selOf v ∧ argOf w = argOf v := by
  constructor
  · rintro rfl
    exact ⟨rfl, rfl, rfl⟩
  · rintro ⟨ho, hs, ha⟩
    rw [packed_of_fields w, packed_of_fields v, ho, hs, ha]

end Sys2Proof
end

