-- ==== Sys2Proof/Laws/PerInstr.lean ====
section
/-! SUPPORT. A statement about every operation as syntax, one lemma per constructor. -/

namespace Sys2Proof.Laws.EncodeFields

/-- The encoded word of the operation has its opcode, its `SEL` field and its `ARG` field (spec/30_encoding.md R150, R158). -/
def Statement (i : Instr) : Prop :=
  opcOf (encode i) = i.opc ∧ selOf (encode i) = i.selField ∧ argOf (encode i) = i.argField

theorem nop : Statement .nop := fields_of_packed _ (Instr.opc_lt _) _ _ _ rfl

theorem playPause : Statement .playPause := fields_of_packed _ (Instr.opc_lt _) _ _ _ rfl

theorem setSpeed (arg : Half) : Statement (.setSpeed arg) := fields_of_packed _ (Instr.opc_lt _) _ _ _ rfl

theorem toggleDir : Statement .toggleDir := fields_of_packed _ (Instr.opc_lt _) _ _ _ rfl

theorem stepFwd : Statement .stepFwd := fields_of_packed _ (Instr.opc_lt _) _ _ _ rfl

theorem stepBack : Statement .stepBack := fields_of_packed _ (Instr.opc_lt _) _ _ _ rfl

theorem nextStream : Statement .nextStream := fields_of_packed _ (Instr.opc_lt _) _ _ _ rfl

theorem prevStream : Statement .prevStream := fields_of_packed _ (Instr.opc_lt _) _ _ _ rfl

theorem volUp : Statement .volUp := fields_of_packed _ (Instr.opc_lt _) _ _ _ rfl

theorem volDown : Statement .volDown := fields_of_packed _ (Instr.opc_lt _) _ _ _ rfl

theorem dQvalid (t : Half) : Statement (.dQvalid t) := fields_of_packed _ (Instr.opc_lt _) _ _ _ rfl

theorem dQoffset (t : Half) : Statement (.dQoffset t) := fields_of_packed _ (Instr.opc_lt _) _ _ _ rfl

theorem dAdvance (sel : Byte) (t : Half) : Statement (.dAdvance sel t) := fields_of_packed _ (Instr.opc_lt _) _ _ _ rfl

theorem dTick : Statement .dTick := fields_of_packed _ (Instr.opc_lt _) _ _ _ rfl

theorem aDone (sel : Byte) : Statement (.aDone sel) := fields_of_packed _ (Instr.opc_lt _) _ _ _ rfl

end Sys2Proof.Laws.EncodeFields
end

