-- ==== Sys2Proof/Laws/Ring.lean ====
section
/-! SUPPORT. Ring index arithmetic: slots and ring words as distances from a base. -/

namespace Sys2Proof.Machine

theorem addN_lt {n : Nat} (h : 0 < n) (a k : Nat) : addN n a k < n := Nat.mod_lt _ h

@[simp] theorem addN_zero {n a : Nat} (h : a < n) : addN n a 0 = a := Nat.mod_eq_of_lt h

theorem addN_addN (n a j k : Nat) : addN n (addN n a j) k = addN n a (j + k) := by
  simp [addN, Nat.add_assoc]

/-- Two points at distances `j ≤ k` from one base are `k - j` apart, less whole turns. -/
theorem distN_addN {n a j k : Nat} (h : j ≤ k) (hk : k - j < n) : distN n (addN n a j) (addN n a k) = k - j := by
  have hn : 0 < n := by omega
  obtain ⟨d, rfl⟩ : ∃ d, k = j + d := ⟨k - j, by omega⟩
  have hd : d < n := by omega
  unfold distN addN
  rw [Nat.mod_mod, Nat.mod_mod]
  have hx : (a + j) % n < n := Nat.mod_lt _ hn
  have hy : (a + (j + d)) % n = ((a + j) % n + d) % n := by rw [← Nat.add_assoc, Nat.mod_add_mod]
  rw [hy]
  generalize (a + j) % n = x at *
  rcases Nat.lt_or_ge (x + d) n with h1 | h1
  · rw [Nat.mod_eq_of_lt h1, show x + d + (n - x) = n + d by omega, Nat.add_mod_left, Nat.mod_eq_of_lt hd]
    omega
  · have hm : (x + d) % n = x + d - n := by rw [Nat.mod_eq_sub_mod h1, Nat.mod_eq_of_lt (by omega)]
    rw [hm, show x + d - n + (n - x) = d by omega, Nat.mod_eq_of_lt hd]
    omega

/-- The distance from a base to the point `k` past it. -/
theorem distN_base {n a k : Nat} (ha : a < n) (hk : k < n) : distN n a (addN n a k) = k := by
  have := distN_addN (n := n) (a := a) (j := 0) (k := k) (Nat.zero_le k) (by omega)
  rwa [addN_zero ha, Nat.sub_zero] at this

/-- A point is its distance past the base. -/
theorem addN_distN {n a b : Nat} (ha : a < n) (hb : b < n) : addN n a (distN n a b) = b := by
  unfold addN distN
  rw [Nat.mod_eq_of_lt ha, Nat.mod_eq_of_lt hb]
  rcases Nat.lt_or_ge b a with h | h
  · rw [Nat.mod_eq_of_lt (show b + (n - a) < n by omega), show a + (b + (n - a)) = n + b by omega, Nat.add_mod_left,
      Nat.mod_eq_of_lt hb]
  · rw [Nat.mod_eq_sub_mod (show n ≤ b + (n - a) by omega), Nat.mod_eq_of_lt (show b + (n - a) - n < n by omega),
      show a + (b + (n - a) - n) = b by omega, Nat.mod_eq_of_lt hb]

theorem distN_lt {n : Nat} (h : 0 < n) (a b : Nat) : distN n a b < n := Nat.mod_lt _ h

/-- The facts of a legal parameter set that proofs use. -/
theorem params_facts (p : Params) :
    1 ≤ p.rows ∧ p.rows ≤ 215 ∧ 129 ≤ p.ringWords ∧ p.ringWords ≤ 4194304 ∧ p.rows + 1 ≤ p.rowSlots
      ∧ p.rowSlots ≤ 65536 ∧ p.audioSlotWords % 128 = 0 ∧ 128 ≤ p.audioSlotWords ∧ p.audioSlotWords ≤ 262144
      ∧ 1 ≤ p.refreshPerFrame ∧ p.refreshPerFrame ≤ 15 ∧ 1 ≤ p.maxBatchSectors ∧ p.maxBatchSectors ≤ 65535 := by
  have h := p.ok
  simp only [ParamValues.legal, Bool.and_eq_true, decide_eq_true_eq] at h
  omega

end Sys2Proof.Machine
end

