-- ==== Sys2Proof/Laws/Planner.lean ====
section
/-! SUPPORT. What the planner's commit does to the row-offset table. -/

namespace Sys2Proof.Machine

theorem State.rowsBefore_le (s : State) (w : Nat) : s.rowsBefore w ≤ s.cfg.rows := by
  simpa [State.rowsBefore] using List.countP_le_length (p := fun r => decide (s.hdr.roAt r < w)) (l := List.range s.cfg.rows)

@[simp] theorem State.commitRow_length (s : State) (rt : List Word) (r : Nat) : (s.commitRow rt r).length = rt.length := by
  simp [State.commitRow]

theorem State.commitRows_length (s : State) (rs : List Nat) (rt : List Word) :
    (rs.foldl s.commitRow rt).length = rt.length := by
  induction rs generalizing rt with
  | nil => rfl
  | cons r rs ih => rw [List.foldl_cons, ih, State.commitRow_length]

/-- Every entry of the table after a commit is an old entry or a byte offset inside RING. -/
theorem State.commitRows_mem (s : State) (rs : List Nat) (rt : List Word) (v : Word) (h : v ∈ rs.foldl s.commitRow rt) :
    v ∈ rt ∨ v.toNat < 4 * s.cfg.ringWords := by
  have hp := params_facts s.cfg
  induction rs generalizing rt with
  | nil => exact .inl h
  | cons r rs ih =>
    rcases ih _ h with h | h
    · rcases List.mem_or_eq_of_mem_set h with h | h
      · exact .inl h
      · right
        have hr := addN_lt (n := s.cfg.ringWords) (by omega) s.cur.frameRingBase.toNat (s.hdr.roAt r)
        rw [h, BitVec.toNat_ofNat]
        omega
    · exact .inr h

/-- The rows of a commit have slots of their own. -/
theorem addN_ne {n a j k : Nat} (h : j < k) (hk : k - j < n) : addN n a j ≠ addN n a k := by
  intro he
  have h1 := distN_addN (n := n) (a := a) (j := j) (k := k) (by omega) hk
  have h2 := distN_addN (n := n) (a := a) (j := j) (k := j) (le_refl j) (by omega)
  rw [← he, h2] at h1
  omega

end Sys2Proof.Machine
end

