-- ==== Sys2Proof/Tests/Slice0.lean ====
section
/-! SUPPORT. Tests of single steps against words and values written out from spec/ (each test names its rule or vector), and, for
every obligation with hypotheses, a state and operands that meet them (`witness_<obligation>`, each clause, at boundary values). -/

namespace Sys2Proof.Tests

open Sys2Proof.Machine

/-! ## Small states: the parameters of spec/95_test_vectors.md section 0 (ROWS 4, 8 slots, 512 ring words) -/

/-- The state after power-on reset. -/
def base : State := State.powerOn Config.params

/-- DEC enabled, in state `st`. -/
def deco (st : DecState) : State := { base with fsm := { state := st, initPhase := false, en := true } }

/-- A frame record whose rows start at slot `start`. -/
def frameAt (start : Half) (ready : Bool) : FrameRec := { FrameRec.none with valid := true, ready := ready, startSlot := start }

/-- A frame shown in slots 6, 7, 0 and 1, all of them valid. -/
def shown : State :=
  { base with
    win := { validFrom := 6, validTo := 2, displayStart := 6, plannedTo := 2 }
    dsp := { showing := true, armed := false, holdCtr := 1, pos0 := 0, pos1 := 0 }
    disp := frameAt 6 true }

/-- The same frame, armed, with its row 0 released and the next frame landed in slots 2 to 5: the valid window ends just with it. -/
def armed : State :=
  { shown with
    win := { validFrom := 7, validTo := 6, displayStart := 6, plannedTo := 6 }
    dsp.armed := true
    next := frameAt 2 true }

/-- Audio slot `k` queued for a shown, audible frame. -/
def queuedSlot : AudioSlot := { state := .queued, given := false, shown := true, audible := true, words := 256 }

/-- The header H0 of spec/95_test_vectors.md with its ten links at `sector`, as words. -/
def h0Words (sector : Word) : List Word :=
  [0x564D4F50, sector, 0, 0, 0x00080008, 400, 0, 44100, 0x005A0002, 15, 10,
   5, 0xFFFFFFFF, 10, 0xFFFFFFFF, 0xFFFFFFFF, 0xFFFFFFFF, 0xFFFFFFFF, 0xFFFFFFFF, 0x21444E45,
   0x00640000, 0x012C00C8, 0x00000190]

/-- HDRBUF filled with words. -/
def withHeader (s : State) (ws : List Word) : State := { s with mem := Memory.cells 0x1000 (ws.flatMap wordBytes) }

/-- A frame of four rows of 100 words being read: spec/42_sg_planner.md R358. -/
def planning : State :=
  { deco .preppingVideo with
    hdr := { Header.zero Config.params with imageWords := 400, ro := [0, 100, 200, 300, 400] }
    next := frameAt 0 false
    cur := { base.cur with imgWords := 400, imgSectors := 4 } }

/-- R358, step 3: the second frame, with the first one shown and armed and its rows 0 and 1 released. -/
def planning2 : State :=
  { planning with
    rt := [0, 400, 800, 1200, 0, 0, 0, 0]
    win := { validFrom := 2, validTo := 4, displayStart := 0, plannedTo := 4 }
    next := frameAt 4 false
    cur := { planning.cur with writeOff := 400, frameRingBase := 400 }
    disp := frameAt 0 true
    dsp := { showing := true, armed := true, holdCtr := 1, pos0 := 2, pos1 := 3 } }

/-- The same state with no row released: its first sector does not fit (R358, step 2). -/
def deferred : State := { planning2 with win.validFrom := 0 }

/-- A one-sector read into HDRBUF outstanding. -/
def reading : State :=
  { deco .readingHeader with
    dma := { busy := true, landed := 0, stale := false, req := { lba := 7, count := 1, frags := [{ dest := 0x1000, words := 128 }] } } }

/-- Frame 0 of R358 is shown and armed, with its rows 0 and 1 released; frame 1's first sector has been issued (rows 0 and 1
hold slots, none has landed) and its read is outstanding. -/
def running : State :=
  { planning2 with
    fsm.state := .readingVideo
    rt := [0, 400, 800, 1200, 1600, 2000, 0, 0]
    win := { validFrom := 2, validTo := 4, displayStart := 0, plannedTo := 6 }
    cur := { planning2.cur with writeOff := 16, fetchSec := 1, rowsPlanned := 2 }
    dma := { busy := true, landed := 0, stale := false
             req := { lba := 5, count := 1, frags := [{ dest := 0x01000640, words := 112 }, { dest := 0x01000000, words := 16 }] } } }

/-- A row table is in order when a check of its entries says so. -/
theorem rowTableOk_of (s : State) (hl : s.rt.length = s.cfg.rowSlots)
    (h : s.rt.all (fun v => decide (v.toNat < 4 * s.cfg.ringWords)) = true) : RowTableOk s :=
  ⟨hl, by simpa using h⟩

/-- The next state, if there is one. -/
def next? : Host.Outcome State Fault Refusal → Option State
  | .next t => some t
  | .fault _ => none
  | .refused _ => none

/-- One step on a state whose next turn is `turn`. -/
def turn (t : Turn) (s : State) : Option State := next? (step { s with env.turns := [t] })

/-! ## Well-formedness: each check refuses an ill-formed term (R154) -/

theorem test_wellFormed_refuses_advance_sel_2 : (Instr.dAdvance 2 0).wellFormed = false := by decide

theorem test_wellFormed_refuses_done_sel_2 : (Instr.aDone 2).wellFormed = false := by decide

/-! ## Decoding: words written out from R150 to R154 -/

theorem test_decode_host :
    [0x00000000, 0x01000000, 0x0200FFFF, 0x03000000, 0x04000000, 0x05000000, 0x06000000, 0x07000000, 0x08000000,
     0x09000000].map (decode .host) =
      [Instr.nop, .playPause, .setSpeed 0xFFFF, .toggleDir, .stepFwd, .stepBack, .nextStream, .prevStream, .volUp,
       .volDown].map Decoded.instr := by decide

theorem test_decode_display :
    [0x20001234, 0x21000003, 0x22010002, 0x23000000].map (decode .display) =
      [Instr.dQvalid 0x1234, .dQoffset 3, .dAdvance 1 2, .dTick].map Decoded.instr := by decide

theorem test_decode_audio : decode .audio 0x30010000 = .instr (.aDone 1) := by decide

/-- spec/95_test_vectors.md L2.1, host port. -/
theorem test_illegal_host :
    [0x00000001, 0x00010000, 0x0A000000, 0x1F000000, 0x20000000, 0x30000000, 0x40000000, 0xFF000000].map (decode .host) =
      [IllegalWord.nonzeroMustBeZero, .nonzeroMustBeZero, .reservedOpcode, .reservedOpcode, .wrongPort, .wrongPort,
       .reservedOpcode, .reservedOpcode].map Decoded.illegal := by decide

/-- L2.1, display and audio ports. -/
theorem test_illegal_other_ports :
    [0x22020000, 0x23000001, 0x24000000, 0x00000000, 0x30000000].map (decode .display) =
        [IllegalWord.nonzeroMustBeZero, .nonzeroMustBeZero, .reservedOpcode, .wrongPort, .wrongPort].map Decoded.illegal
      ∧ [0x30000001, 0x30020000, 0x31000000, 0x23000000].map (decode .audio) =
        [IllegalWord.nonzeroMustBeZero, .nonzeroMustBeZero, .reservedOpcode, .wrongPort].map Decoded.illegal := by decide

/-- L2.1: the assembler's aliases. -/
theorem test_aliases :
    encode (Pseudo.speedSlow 1).expand = 0x0200FFFF ∧ encode (Pseudo.speedFf 3).expand = 0x02000003
      ∧ encode (Pseudo.dLine 1 5).expand = 0x22010002 := by decide

/-! ## Commands (L2.2) -/

theorem test_nop : next? (exec .nop shown) = some shown := by decide

theorem test_play_pause : (next? (exec .playPause base)).map (fun t => (t.ctl.paused, statusWord t)) = some (true, 0x10) := by
  decide

theorem test_set_speed_minus_16 :
    (turn (.hostWrite 0x0C 4 0x0200FFF0) base).map (·.readReg 0x10) = some 0x000000F0 := by decide

theorem test_set_speed_4_illegal :
    (turn (.hostWrite 0x0C 4 0x02000004) base).map (fun t => (t.ctl.speed, t.readReg 0x38)) = some (0, 0x00000306) := by decide

theorem test_toggle_dir : (next? (exec .toggleDir base)).map statusWord = some 0x20 := by decide

theorem test_step_fwd_wraps :
    (next? (exec .stepFwd { base with hdrValid := true, hdr.link := Vector.replicate 8 0xFFFFFFFF })).map
      (fun t => (t.ovr, t.ctl.stepPending)) = some ({ valid := true, stream := 0, sector := 0 }, true) := by decide

theorem test_step_back_wraps :
    (next? (exec .stepBack { base with hdrValid := true, hdr.link := Vector.replicate 8 0xFFFFFFFF
                                       hdr.lastFrameSector := 9000 })).map (·.ovr.sector) = some 9000 := by decide

theorem test_next_stream_accumulates :
    ((next? (exec .nextStream { base with strm.count := 3, strm.sel := 2 })).bind fun t =>
      (next? (exec .nextStream t))).map (·.ovr.stream) = some 1 := by decide

theorem test_prev_stream : (next? (exec .prevStream { base with strm.count := 3 })).map (·.ovr.stream) = some 2 := by decide

theorem test_vol_up_saturates :
    (next? (exec .volUp { base with ctl.volume := 250 })).map (·.ctl.volume) = some 255 := by decide

theorem test_vol_down_saturates :
    (next? (exec .volDown { base with ctl.volume := 10 })).map (·.ctl.volume) = some 0 := by decide

/-! ## Display operations -/

/-- R401: row 3 lies in slot 1, beyond the wrap of the slot array. -/
theorem test_qvalid_last_row :
    (next? (exec (.dQvalid 3) shown)).map (·.env.emitted) = some [.response .disp0 0x80000000] := by decide

/-- R402, R157. -/
theorem test_qoffset :
    (next? (exec (.dQoffset 2) { shown with rt := [752, 0, 0, 0, 0, 0, 0, 0] })).map (·.env.emitted) =
      some [.response .disp0 0x800002F0] := by decide

/-- P5, step 1: `d.advance 0, 5` with four rows. -/
theorem test_advance_past_the_frame :
    (turn (.display .disp0 0x22000005) shown).map (fun t => (t.fsm.state, t.readReg 0x38, t.ev.desyncCount, t.readReg 0x18)) =
      some (.init, 0x00000001, 1, 0) := by decide

/-- R405: the slower consumer at row 2 releases row 1 while armed. -/
theorem test_advance_releases :
    (next? (exec (.dAdvance 1 2) { armed with dsp.pos0 := 2 })).map (fun t => (t.dsp.pos1, t.win.validFrom)) =
      some (2, 0) := by decide

/-- R410: the flip at the boundary of the valid window. -/
theorem test_tick_flips :
    (next? (exec .dTick armed)).map (fun t => (t.win.displayStart, t.win.validFrom, t.ev.irqStatus, t.dsp.armed)) =
      some (2, 2, 0x08, false) := by decide

/-- R410: one row short of it is an underrun. -/
theorem test_tick_underrun :
    (next? (exec .dTick { armed with win.validTo := 5 })).map (fun t => (t.ev.cause, t.dsp.showing)) = some (2, false) := by
  decide

/-- R412: the hold tiers. -/
theorem test_hold_counts : [0, 3, 0xFF, 0xF0].map (holdCount Config.params) = [1, 1, 2, 17] := by decide

/-! ## Audio -/

/-- R456; P3, step 12. -/
theorem test_done_returns_and_refuses :
    (next? (exec (.aDone 1) { base with slot1 := { queuedSlot with given := true } })).map (·.slot1.state) = some .empty
      ∧ (next? (exec (.aDone 1) base)).map (·.readReg 0x38) = some 0x00000406 := by decide

/-- R454, R455: given while playing, discarded while paused. -/
theorem test_handoff :
    ({ base with slot1 := queuedSlot } : State).tryHandoff 1 =
        { base with slot1 := { queuedSlot with given := true }, env.emitted := [.give 1 0x00200000 256] }
      ∧ ({ base with slot1 := queuedSlot, ctl.paused := true } : State).tryHandoff 1 =
        { base with slot1 := { queuedSlot with state := .empty, shown := false }, ctl.paused := true } := by decide

/-- L1.9 and P3: gains 127 and 239 on both halves of a word. -/
theorem test_gain :
    [0xFF0100FF, 0xFF0200FE, 0xFF800080, 0xFF81007F, 0xFFFF0001].map (gainWord 127) =
        [0xFF80007F, 0xFF81007F, 0xFFC00040, 0xFFC0003F, 0xFFFF0000]
      ∧ [0x01000100, 0xFF00FF00].map (gainWord 239) = [0x00F000F0, 0xFF10FF10] := by decide

/-! ## The decoder, the planner and storage -/

/-- R358, step 1. -/
theorem test_plan_first_frame :
    planning.plan = { k := 4, need := 400, wo := 400, rp := 4
                      frags := [{ dest := 0x01000000, words := 400 }, { dest := discard, words := 112 }] } := by
  set_option maxRecDepth 4000 in decide

/-- R358, step 3: the batch splits at the ring end. -/
theorem test_plan_splits :
    planning2.plan.frags = [{ dest := 0x01000640, words := 112 }, { dest := 0x01000000, words := 16 }]
      ∧ (decStep planning2).map (fun t => (t.rt, t.win.plannedTo, t.cur.writeOff, t.dma.req.count)) =
        some ([0, 400, 800, 1200, 1600, 2000, 0, 0], 6, 16, 1) := by decide

/-- R358, step 2: a deferral is a hold. -/
theorem test_plan_defers :
    decStep deferred = none := by decide

/-- L1.4: H0 is accepted, and each change is rejected by check 7. -/
theorem test_validate_row_table :
    validate Config.params 70 (withHeader base (h0Words 70)).hdrByte = none
      ∧ validate Config.params 70 (withHeader base ((h0Words 70).set 20 0x00640001)).hdrByte = some 7
      ∧ validate Config.params 70 (withHeader base ((h0Words 70).set 22 0x0000018F)).hdrByte = some 7
      ∧ validate Config.params 70 (withHeader base ((h0Words 70).set 21 0x012C0064)).hdrByte = some 7 := by decide

/-- L1.8: speed 3 takes link 6. -/
theorem test_speed_3_takes_the_plus_8_link :
    (decStep { deco .frameReady with ctl.speed := 3, hdr.link := #v[77, 63, 84, 56, 98, 42, 126, 14] }).map
      (fun t => (t.fsm.state, t.seq.nextSector)) = some (.newFrame, 126) := by decide

/-- P4, step 3: the partition entry of type 0xDA, first sector 100, count 3. -/
theorem test_directory :
    mbrDirectory Config.params (fun i => if i = 510 then 0x55 else if i = 511 then 0xAA else if i = 0x1C2 then 0xDA
      else if i = 0x1C6 then 0x64 else if i = 0x1CA then 3 else 0) = [{ base := 100, len := 3 }] := by decide

/-- R112: the bytes of sector 7 land in order. -/
theorem test_land :
    (turn (.storLand 128) { reading with disk := [(3585, 0xAB)] }).map
      (fun t => (t.bufByte 0x1001, t.dma.landed, t.dma.busy)) = some (0xAB, 128, true) := by
  set_option maxRecDepth 4000 in decide

/-- R561: a read that the desync reset overtakes is stale; its completion draws a free byte for each of its bytes. -/
theorem test_stale_read_completes :
    (turn .storComplete { reading with dma := { reading.dma with landed := 128, stale := true } }).map
        (fun t => (t.dma.busy, t.env.draws)) = some (false, 512)
      ∧ (turn (.display .disp0 0x22000005) { shown with dma := reading.dma }).map (·.dma.stale) = some true := by decide

/-- R562: a consumer's read outside the window draws a free byte; HOST's read, and a consumer's inside it, none. -/
theorem test_consumer_reads :
    (turn (.busRead .disp0 0x01000046 1) running).map (·.env.draws) = some 1
      ∧ (turn (.busRead .host 0x01000046 1) running).map (·.env.draws) = some 0
      ∧ (turn (.busRead .disp1 0x01000320 1) running).map (·.env.draws) = some 0 := by decide

/-! ## Registers -/

/-- L2.2: a write of `CTRL` with bit 1 is the soft reset; `VOLUME` takes the low byte; `IRQ_STATUS` is cleared by ones. -/
theorem test_register_writes :
    (turn (.hostWrite 0x04 4 0x00000003) shown).map (fun t => (t.fsm.en, t.dsp.showing)) = some (false, false)
      ∧ (turn (.hostWrite 0x14 4 0x00001234) base).map (·.readReg 0x14) = some 0x34
      ∧ (turn (.hostWrite 0x44 4 0x10) { base with ev.irqStatus := 0x18 }).map (·.ev.irqStatus) = some 0x08 := by decide

/-- L2.2: a misaligned read is answered with the bus error; a reserved register reads 0. -/
theorem test_register_reads :
    (turn (.busRead .host 0x02 4) base).map (·.env.emitted) = some [.readData .host 0 true]
      ∧ (turn (.busRead .host 0x60 4) base).map (·.env.emitted) = some [.readData .host 0 false]
      ∧ (turn (.busRead .host 0x00 4) base).map (·.env.emitted) = some [.readData .host 0x56444543 false] := by decide

/-! ## Witnesses: operation words and steps -/

theorem witness_DecodeInvertsEncode : (Instr.dAdvance 1 0xFFFF).wellFormed = true ∧ (Instr.setSpeed 0x8000).wellFormed = true := by
  decide

theorem witness_EncodeInvertsDecode :
    decode .display 0x2201FFFF = .instr (.dAdvance 1 0xFFFF) ∧ decode .host 0x02008000 = .instr (.setSpeed 0x8000)
      ∧ decode .audio 0x30000000 = .instr (.aDone 0) := by decide

theorem witness_LegalWordsMatchTheMasks :
    decode .host 0x09000000 = .instr .volDown ∧ decode .display 0x23000000 = .instr .dTick
      ∧ decode .audio 0x30010000 = .instr (.aDone 1) ∧ 0x40 ≤ opcOf 0x40000000 ∧ 0x40 ≤ opcOf 0xFFFFFFFF := by decide

theorem witness_StepRunsTheDecodedOperation :
    decode .host 0x00000000 = .instr .nop ∧ ({ base with env.turns := [.hostWrite 0x0C 4 0] } : State).env.turns = [.hostWrite 0x0C 4 0]
      ∧ decode .display 0x23000000 = .instr .dTick
      ∧ ({ base with env.turns := [.display .vt 0x23000000] } : State).env.turns = [.display .vt 0x23000000]
      ∧ decode .audio 0x30000000 = .instr (.aDone 0)
      ∧ ({ base with env.turns := [.audio 0x30000000] } : State).env.turns = [.audio 0x30000000]
      ∧ decodeTableWord 32 0x22010002 = some (.dAdvance 1 2)
      ∧ ({ base with env.turns := [.dec, .storComplete] } : State).env.turns = [.dec, .storComplete] ∧ base.env.turns = [] := by decide

theorem witness_IllegalWordsOnlyRaise :
    decode .host 0x0A000000 = .illegal .reservedOpcode ∧ decode .host 0x2F000000 = .illegal .reservedOpcode
      ∧ decode .host 0x20000000 = .illegal .wrongPort ∧ decode .audio 0x30020000 = .illegal .nonzeroMustBeZero
      ∧ decode .display 0x00000000 = .illegal .wrongPort
      ∧ (0xFFEF : Half).toInt < -16 ∧ 3 < (4 : Half).toInt ∧ (base.slot (unitOf 1)).given = false := by decide

/-! ## Witnesses: commands -/

theorem witness_NopChangesNothing : opcOf 0x00000001 = 0 ∧ (0x00000001 : Word) ≠ 0 ∧ opcOf 0x00FFFFFF = 0 := by decide

theorem witness_SetSpeedChecksTheRange :
    (-16 ≤ (0xFFF0 : Half).toInt ∧ (0xFFF0 : Half).toInt ≤ 3) ∧ (-16 ≤ (3 : Half).toInt ∧ (3 : Half).toInt ≤ 3)
      ∧ (0xFFEF : Half).toInt < -16 ∧ (0x8000 : Half).toInt < -16 ∧ 3 < (4 : Half).toInt ∧ 3 < (0x7FFF : Half).toInt := by decide

/-- Both kinds of link, and no header. -/
theorem witness_StepCommandsSetTheOverride :
    ({ base with hdrValid := true } : State).hdrValid = true
      ∧ ({ base with hdrValid := true, hdr.link := #v[5, 0xFFFFFFFF, 0, 0, 0, 0, 0, 0] } : State).hdr.link[0] ≠ 0xFFFFFFFF
      ∧ ({ base with hdrValid := true, hdr.link := #v[5, 0xFFFFFFFF, 0, 0, 0, 0, 0, 0] } : State).hdr.link[1] = 0xFFFFFFFF
      ∧ ({ base with hdrValid := true, hdr.link := #v[0xFFFFFFFF, 7, 0, 0, 0, 0, 0, 0] } : State).hdr.link[0] = 0xFFFFFFFF
      ∧ ({ base with hdrValid := true, hdr.link := #v[0xFFFFFFFF, 7, 0, 0, 0, 0, 0, 0] } : State).hdr.link[1] ≠ 0xFFFFFFFF
      ∧ base.hdrValid = false := by decide

/-- With an override and without, at the last stream and at the first, and with no stream. -/
theorem witness_StreamCommandsSetTheOverride :
    (∀ s : State, s = { base with strm.count := 4, strm.sel := 3 } →
      3 = (if s.ovr.valid = true then s.ovr.stream.toNat else s.strm.sel.toNat) ∧ 0 < s.strm.count.toNat)
      ∧ (∀ s : State, s = { base with strm.count := 1, ovr := { valid := true, stream := 0, sector := 9 } } →
        0 = (if s.ovr.valid = true then s.ovr.stream.toNat else s.strm.sel.toNat) ∧ 0 < s.strm.count.toNat)
      ∧ 0 = (if base.ovr.valid = true then base.ovr.stream.toNat else base.strm.sel.toNat) ∧ base.strm.count.toNat = 0 := by
  refine ⟨?_, ?_, by decide, by decide⟩ <;> (rintro s rfl; decide)

theorem witness_CommandsLeaveTheRingAlone : (Instr.stepFwd).port = .host ∧ (Instr.setSpeed 0).port = .host := by decide

/-! ## Witnesses: the display port -/

theorem witness_RowVisible : RowVisible shown 0 ∧ RowVisible shown 3 ∧ ¬RowVisible shown 4 ∧ ¬RowVisible armed 0 := by
  unfold RowVisible
  decide

theorem witness_QueriesAnswerAndChangeNothing :
    RowVisible shown (3 : Half).toNat ∧ ¬RowVisible shown (4 : Half).toNat ∧ ¬RowVisible base (0 : Half).toNat := by
  unfold RowVisible
  decide

theorem witness_ResponseFieldsOfVisibleRow :
    RowTableOk { shown with rt := List.replicate 8 2047 } ∧ RowVisible { shown with rt := List.replicate 8 2047 } (3 : Half).toNat := by
  refine ⟨rowTableOk_of _ (by decide) (by decide), ?_⟩
  unfold RowVisible
  decide

/-- Not showing; showing and not visible; visible, armed and not, with the lowest position ahead of the released rows and not. -/
theorem witness_AdvanceMovesOrDesyncs :
    base.dsp.showing = false
      ∧ (armed.dsp.showing = true ∧ ¬RowVisible armed (0 : Half).toNat)
      ∧ (RowVisible shown (3 : Half).toNat ∧ shown.dsp.armed = false)
      ∧ (RowVisible armed (1 : Half).toNat ∧ armed.dsp.armed = true)
      ∧ distN 8 6 7 < distN 8 6 (addN 8 6 2) ∧ distN 8 6 (addN 8 6 1) ≤ distN 8 6 7 := by
  unfold RowVisible
  decide

theorem witness_ReleaseMovesForwardOnly :
    armed.win.displayStart.toNat < armed.cfg.rowSlots ∧ armed.win.validFrom.toNat < armed.cfg.rowSlots
      ∧ min armed.dsp.pos0.toNat armed.dsp.pos1.toNat < armed.cfg.rowSlots := by decide

theorem witness_TickCountsDown :
    (shown.dsp.armed = false ∧ shown.dsp.showing = true ∧ ¬PausedEff shown)
      ∧ (shown.dsp.armed = false ∧ shown.dsp.showing = true ∧ PausedEff { shown with ctl.paused := true })
      ∧ (base.dsp.armed = false ∧ base.dsp.showing = false ∧ ¬(base.next.valid = true ∧ base.next.ready = true)) := by
  unfold PausedEff
  decide

theorem witness_ArmedTickFlipsOrResets :
    (armed.dsp.armed = true ∧ armed.dsp.showing = true ∧ FlipFits armed ∧ speedLegal armed.next.speed.toInt = true)
      ∧ ¬FlipFits { armed with win.validTo := 5 } ∧ ({ armed with win.validTo := 5 } : State).dsp.armed = true := by
  unfold FlipFits
  decide

/-- Both kinds of audio slot field of the frame shown. -/
theorem witness_TickShowsTheFirstFrame :
    ∀ s : State, s = { base with next := frameAt 0 true } ∨ s = { base with next := { frameAt 0 true with aslot := some 1 } } →
      s.dsp.armed = false ∧ s.dsp.showing = false ∧ s.next.valid = true ∧ s.next.ready = true
        ∧ speedLegal s.next.speed.toInt = true := by
  rintro s (rfl | rfl) <;> decide

theorem witness_HoldCountRange :
    (-16 ≤ (0xF0 : BitVec 8).toInt ∧ (0xF0 : BitVec 8).toInt < 0) ∧ (0 ≤ (0 : BitVec 8).toInt ∧ (3 : BitVec 8).toInt ≤ 3)
      ∧ (0xFF : BitVec 8).toInt < 0 := by decide

/-! ## Witnesses: audio -/

theorem witness_DoneReturnsTheSlot :
    ((1 : Fin 2).val = (1 : Byte).toNat % 2 ∧ (({ base with slot1 := { queuedSlot with given := true } } : State).slot 1).given = true)
      ∧ (0 : Fin 2).val = (0 : Byte).toNat % 2 ∧ (base.slot 0).given = false := by decide

theorem witness_HandoffGivesOrDiscards :
    ∀ s : State, s = { base with slot0 := queuedSlot } →
      ((s.slot 0).state = .queued ∧ (s.slot 0).shown = true ∧ (s.slot 0).given = false)
        ∧ (s.ctl.paused = false ∧ (s.slot 0).audible = true)
        ∧ ({ s with ctl.paused := true } : State).ctl.paused = true
        ∧ ¬((s.slot 1).state = .queued ∧ (s.slot 1).shown = true ∧ (s.slot 1).given = false) := by
  rintro s rfl
  decide

theorem witness_GainOfSamples :
    (-32768 ≤ (-32768 : Int) ∧ (-32768 : Int) ≤ 32767 ∧ 0 ≤ 255) ∧ (-32768 ≤ (32767 : Int) ∧ (32767 : Int) ≤ 32767) := by decide

theorem witness_SectorPairPassIsReversalAndGain :
    (List.replicate (128 * 3) (0 : Word)).length = 128 * 3 ∧ ([] : List Word).length = 128 * 0 :=
  ⟨List.length_replicate, rfl⟩

/-! ## Witnesses: the decoder -/

theorem witness_DecoderTransitions :
    (base.fsm.en = false ∧ ({ base with env.turns := [.dec] } : State).env.turns = [.dec])
      ∧ decStep (deco .hitEnd) = some ((deco .hitEnd).raise .hitEnd |>.goto .newFrame)
      ∧ (deco .hitEnd).fsm.en = true ∧ ({ deco .hitEnd with env.turns := [.dec] } : State).env.turns = [.dec]
      ∧ reading.fsm.en = true ∧ ({ reading with env.turns := [.dec] } : State).env.turns = [.dec] ∧ decStep reading = none := by decide

/-- Parameters with a directory format other than the default. -/
def otherDirectory : Params := { Config.params.toParamValues with directory := .other, ok := by decide }

/-- Before the read, while it is outstanding, and after it, with no stream found (the signature and no entry) and with one (no
signature: the whole device). -/
theorem witness_InitDiscoversStreams :
    (∀ s : State, s = deco .init → s.fsm.en = true ∧ s.fsm.state = .init ∧ s.dma.busy = false ∧ s.fsm.initPhase = false)
      ∧ ({ reading with fsm := { state := .init, initPhase := true, en := true } } : State).dma.busy = true
      ∧ (∀ s : State,
        s = { deco .init with fsm.initPhase := true, mem := Memory.cells 0x11BE (List.replicate 64 0 ++ [0x55, 0xAA]) } →
        s.fsm.en = true ∧ s.fsm.state = .init ∧ s.dma.busy = false ∧ s.fsm.initPhase = true ∧ s.foundStreams = [])
      ∧ (∀ s : State, s = { deco .init with fsm.initPhase := true, mem := Memory.cells 0x11FE [0, 0] } →
        s.cfg.directory = .mbr ∧ s.foundStreams = [{ base := 0, len := 1000 }] ∧ s.foundStreams.length ≤ (4 : BitVec 8).toNat
          ∧ s.strm.sel.toNat < s.foundStreams.length)
      ∧ otherDirectory.directory = .other := by
  refine ⟨?_, by decide, ?_, ?_, rfl⟩ <;> (rintro s rfl; decide)

theorem witness_DefaultDirectoryLists :
    (∀ b : Nat → Byte, b = (fun _ => 0) → ¬(b 510 = 0x55 ∧ b 511 = 0xAA))
      ∧ ∀ b : Nat → Byte, b = (fun i => if i = 510 then 0x55 else 0xAA) → b 510 = 0x55 ∧ b 511 = 0xAA := by
  constructor <;> (rintro b rfl; decide)

/-- Waiting, with an override of the same stream and of another, and without. -/
theorem witness_NewFrameTakesTheOverride :
    (deco .newFrame).fsm.en = true ∧ (deco .newFrame).fsm.state = .newFrame
      ∧ ({ deco .newFrame with next := frameAt 0 true } : State).next.valid = true
      ∧ (∀ o : Override, o = { valid := true, stream := 0, sector := 9 } →
        ({ deco .newFrame with ovr := o } : State).ovr.valid = true ∧ (deco .newFrame).next.valid = false
          ∧ o.stream = (deco .newFrame).strm.sel)
      ∧ (3 : BitVec 8) ≠ (deco .newFrame).strm.sel ∧ (3 : BitVec 8).toNat < 4
      ∧ (deco .newFrame).ovr.valid = false := by
  refine ⟨by decide, by decide, by decide, ?_, by decide, by decide, by decide⟩
  rintro o rfl
  decide

theorem witness_HeaderAndAudioReads :
    ((deco .needHeader).fsm.en = true ∧ (deco .needHeader).dma.busy = false ∧ (deco .needHeader).fsm.state = .needHeader)
      ∧ ∀ s : State,
        s = { deco .needAudio with next := { frameAt 0 false with aslot := some 1 }, hdr.audioWords := 256 } →
        s.fsm.en = true ∧ s.dma.busy = false ∧ s.fsm.state = .needAudio
          ∧ (if s.decShown = true then s.disp else s.next).aslot = some 1 ∧ s.hdr.audioWords.toNat ≤ s.cfg.audioSlotWords := by
  refine ⟨by decide, ?_⟩
  rintro s rfl
  decide

theorem witness_AcceptanceLatchesTheHeader :
    ∀ s : State, s = { withHeader (deco .readingHeader) (h0Words 70) with seq.curSector := 70 } →
      s.fsm.en = true ∧ s.fsm.state = .readingHeader ∧ s.dma.busy = false
        ∧ ∀ v, 1 ≤ v → v ≤ 8 → HeaderCheck s.cfg s.seq.curSector s.hdrByte v := by
  rintro s rfl
  refine ⟨by decide, by decide, by decide, ?_⟩
  intro v h1 h8
  interval_cases v <;> simp only [HeaderCheck] <;> decide

/-- With the search still open and with it exhausted. -/
theorem witness_RejectionCountsTheSearch :
    ∀ s : State, s = { withHeader (deco .readingHeader) (h0Words 70) with seq.curSector := 71, strm.lenCur := 2 } →
      s.fsm.en = true ∧ s.fsm.state = .readingHeader ∧ s.dma.busy = false
        ∧ validate s.cfg s.seq.curSector s.hdrByte = some 4
        ∧ s.seq.searchCtr.toNat + 1 < s.strm.lenCur.toNat
        ∧ ({ s with seq.searchCtr := 1 } : State).strm.lenCur.toNat ≤ ({ s with seq.searchCtr := 1 } : State).seq.searchCtr.toNat + 1 := by
  rintro s rfl
  decide

theorem witness_VideoCursorsStart :
    ∀ s : State, s = { deco .needVideo with hdr.imageWords := 65535, hdr.audioWords := 256 } →
      s.fsm.en = true ∧ s.fsm.state = .needVideo ∧ s.hdr.imageWords.toNat ≤ 65535 := by
  rintro s rfl
  decide

/-- Busy; and complete with sectors left, with audio, and without. -/
theorem witness_CompletionCountsWholeRows :
    ∀ s : State, s = { planning with fsm.state := .readingVideo } →
      (s.fsm.en = true ∧ s.fsm.state = .readingVideo ∧ s.dma.busy = false)
        ∧ ({ s with dma.busy := true } : State).dma.busy = true
        ∧ s.cur.fetchSec.toNat < s.cur.imgSectors.toNat
        ∧ (∀ u : State, u = { s with cur.fetchSec := 4 } →
          u.cur.imgSectors.toNat ≤ u.cur.fetchSec.toNat ∧ u.hdr.audioWords.toNat = 0
            ∧ 0 < ({ u with hdr.audioWords := 128 } : State).hdr.audioWords.toNat) := by
  rintro s rfl
  refine ⟨by decide, by decide, by decide, ?_⟩
  rintro u rfl
  decide

/-- No slot Empty, the second one Empty, the read outstanding and complete, and a slot to process. -/
theorem witness_AudioStatesFillASlot :
    (∀ s : State, s = { deco .awaitAudioBuffer with slot0 := queuedSlot } →
      s.fsm.en = true ∧ s.fsm.state = .awaitAudioBuffer ∧ (s.slot 1).state = .empty ∧ s.slot0.state ≠ .empty
        ∧ ({ s with slot1 := queuedSlot } : State).slot1.state ≠ .empty)
      ∧ ({ reading with fsm.state := .readingAudio } : State).dma.busy = true ∧ (deco .readingAudio).dma.busy = false
      ∧ ∀ s : State, s = { deco .postProcessAudio with next := { frameAt 0 false with aslot := some 0 } } →
        s.fsm.en = true ∧ s.fsm.state = .postProcessAudio ∧ (if s.decShown = true then s.disp else s.next).aslot = some 0
          ∧ (s.slot 0).words.toNat = 128 * 0 ∧ (({ s with slot0 := queuedSlot } : State).slot 0).words.toNat = 128 * 2
          ∧ (if s.decShown = true then s.disp else s.next).dir = false
          ∧ (({ s with next.dir := true } : State).next).dir = true := by
  refine ⟨?_, by decide, by decide, ?_⟩ <;> (rintro s rfl; decide)

/-- A forward tier (magnitude 3, backward: link 7) and a hold tier (magnitude 0); a link that is there and one that is not. -/
theorem witness_TrickPlaySelectsTheLink :
    ∀ s : State, s = { deco .frameReady with ctl.speed := 3, ctl.dir := true
                                             hdr.link := #v[0xFFFFFFFF, 0, 0, 0, 0, 0, 0, 14] } →
      s.fsm.en = true ∧ speedLegal s.ctl.speed.toInt = true ∧ ((3 : Nat) : Int) = max 0 s.ctl.speed.toInt
        ∧ s.fsm.state = .frameReady ∧ s.hdr.link[7] ≠ 0xFFFFFFFF ∧ s.hdr.link[0] = 0xFFFFFFFF
        ∧ ((0 : Nat) : Int) = max 0 (0xF0 : BitVec 8).toInt ∧ speedLegal (0xF0 : BitVec 8).toInt = true
        ∧ (deco .audioReady).fsm.state = .audioReady := by
  rintro s rfl
  decide

theorem witness_ErrorAndEndRecover :
    ((deco .hitEnd).fsm.en = true ∧ (deco .hitEnd).fsm.state = .hitEnd)
      ∧ ∀ s : State, s = { deco .error with strm.lenCur := 1 } →
        s.fsm.en = true ∧ s.fsm.state = .error ∧ s.seq.terminal = false ∧ 0 < s.strm.lenCur.toNat ∧ s.ovr.valid = false
          ∧ ({ s with seq.terminal := true } : State).seq.terminal = true ∧ ({ s with ovr.valid := true } : State).ovr.valid = true := by
  refine ⟨by decide, ?_⟩
  rintro s rfl
  decide

/-! ## A state of the invariant -/

theorem running_indices : IndicesOk running where
  start_lt := by decide
  from_lt := by decide
  planned := by decide
  validTo := by decide
  landed_le := by decide
  ahead_le := by decide
  released_lt := by decide
  released_hidden := by decide
  budget := by decide
  nextStart := by decide
  pos0_lt := by decide
  pos1_lt := by decide
  armed_next := by decide

theorem running_cursors : CursorsOk running where
  off_lt := by decide
  header := by decide
  words := by decide
  sectors := by decide
  fetched := by decide
  planned := by decide
  done_le := by decide
  prepping := by decide
  reading := by decide
  finished := by decide

theorem running_phase : PhaseOk running where
  hidden := by decide
  ahead := by decide
  needed := by decide
  shownEarly := by decide
  ready := by decide

/-- Frame 0's rows 2 and 3, from ring words 200 and 300, then frame 1's rows 0 and 1, from 400 and 500, up to the write offset 16. -/
theorem running_layout : LayoutOk running where
  length := by decide
  start_lt := by decide
  aligned := by decide
  order := by decide
  base_lt := by decide
  offset := by decide

/-- The read outstanding lands ring words 400 to 511 and 0 to 15, and the rows of the window are words 200 to 399. -/
theorem running_landing : LandingOk running where
  header := by decide
  slots := by decide
  apart := by
    rintro a ⟨-, f, hf, -, h1, h2⟩ - j hj
    have hj : j < 2 := lt_of_lt_of_eq hj (by decide)
    have ha : 0x01000640 ≤ a ∧ a < 0x01000800 ∨ 0x01000000 ≤ a ∧ a < 0x01000040 := by
      rcases List.mem_cons.1 hf with rfl | hf
      · exact Or.inl ⟨h1, h2⟩
      · obtain rfl := List.mem_singleton.1 hf
        exact Or.inr ⟨h1, h2⟩
    have e0 : running.startOf 0 = 200 := by decide
    have e1 : running.startOf 1 = 300 := by decide
    have e2 : running.startOf 2 = 400 := by decide
    have er : running.cfg.ringWords = 512 := rfl
    interval_cases j <;> simp only [Nat.zero_add, Nat.reduceAdd, e0, e1, e2, er, distN, ringBase] <;> omega

theorem running_sync : SyncInv running := ⟨running_indices, running_cursors, running_phase, running_layout, running_landing⟩

/-! ## Witnesses: the planner and storage -/

theorem witness_PlanIsWellFormed :
    ∀ s : State, s = planning2 ∨ s = { planning2 with cur.writeOff := 511, cur.fetchSec := 4 } →
      s.cur.writeOff.toNat < s.cfg.ringWords ∧ s.cur.imgSectors.toNat = (s.cur.imgWords.toNat + 127) / 128
        ∧ s.cur.fetchSec.toNat ≤ s.cur.imgSectors.toNat := by
  rintro s (rfl | rfl) <;> decide

theorem planning2_keep : KeepBoundary planning2 200 := ⟨fun _ => ⟨800, rfl, rfl⟩, fun h => absurd h (by decide)⟩

theorem deferred_keep : KeepBoundary deferred 0 := ⟨fun _ => ⟨0, rfl, rfl⟩, fun h => absurd h (by decide)⟩

/-- The batch of R358, step 3, both of its fragments at their last words; the boundary with no slot assigned; and a state of the
invariant with four assigned slots and a batch. -/
theorem witness_PlanWritesOnlyFreeWords :
    (KeepBoundary planning2 200 ∧ planning2.cur.writeOff.toNat < planning2.cfg.ringWords
        ∧ ∀ f ∈ planning2.plan.frags, f.dest ≠ discard ∧ f.words - 1 < f.words)
      ∧ KeepBoundary planning 0
      ∧ SyncInv running ∧ 3 < running.slotsAssigned ∧ running.plan.frags = [{ dest := 0x01000040, words := 128 }] :=
  ⟨⟨planning2_keep, by decide, by decide⟩, ⟨fun h => absurd rfl h, fun _ => rfl⟩, running_sync, by decide, by decide⟩

/-- The batch of R358, step 3, its row 1 and a slot of no row of it; and the deferral of step 2. -/
theorem witness_CommitRecordsRowOffsets :
    (∀ s : State, s = planning2 ∨ s = deferred →
      RowTableOk s ∧ s.fsm.en = true ∧ s.fsm.state = .preppingVideo ∧ s.dma.busy = false
        ∧ s.cur.writeOff.toNat < s.cfg.ringWords ∧ s.cur.imgSectors.toNat = (s.cur.imgWords.toNat + 127) / 128
        ∧ s.cur.fetchSec.toNat ≤ s.cur.imgSectors.toNat)
      ∧ KeepBoundary planning2 200 ∧ KeepBoundary deferred 0 ∧ deferred.plan.k = 0 ∧ planning2.plan.k = 1
      ∧ planning2.cur.rowsPlanned.toNat ≤ 1 ∧ 1 < planning2.plan.rp
      ∧ ∀ r, planning2.cur.rowsPlanned.toNat ≤ r → r < planning2.plan.rp →
          7 ≠ addN planning2.cfg.rowSlots planning2.next.startSlot.toNat r := by
  refine ⟨?_, planning2_keep, deferred_keep, by decide, by decide, by decide, by decide, ?_⟩
  · rintro s (rfl | rfl) <;>
      exact ⟨rowTableOk_of _ (by decide) (by decide), by decide, by decide, by decide, by decide, by decide, by decide⟩
  · intro r _ hr
    have hr : r < 2 := lt_of_lt_of_eq hr (by decide)
    interval_cases r <;> decide

/-- A read split at the ring end, and one whose padding is discarded, with nothing, one word and all of it landed, stale and not; one with
its last word still to land; and none. -/
theorem witness_LandedDataReadsBack :
    (∀ u : State, u = { reading with dma.landed := 127 } → u.dma.busy = true ∧ u.dma.landed < 128 * u.dma.req.count.toNat)
      ∧ base.dma.busy = false
      ∧ ∀ (s : State) (fs : List Frag) (n : Nat),
      fs = [{ dest := 0x01000640, words := 112 }, { dest := 0x01000000, words := 16 }]
        ∨ fs = [{ dest := 0x01000600, words := 16 }, { dest := discard, words := 112 }] →
      n = 0 ∨ n = 1 ∨ n = 128 →
      s = { reading with dma.req.frags := fs, dma.landed := n }
        ∨ s = { reading with dma.req.frags := fs, dma.landed := n, dma.stale := true } →
      s.dma.busy = true ∧ s.dma.req.words ≤ s.dma.landed + (128 - n) ∧ (s.dma.req.frags.map (·.words)).sum = s.dma.req.words
        ∧ s.dma.req.frags.Pairwise Frag.Disjoint ∧ (∃ f, s.dma.req.frags = [] ++ f :: s.dma.req.frags.tail ∧ f.dest ≠ discard ∧ 63 < 4 * f.words)
        ∧ (∀ f ∈ s.dma.req.frags, f.dest ≠ discard → 0x1000 < f.dest.toNat)
        ∧ (n = 0 → 4 * s.dma.landed ≤ 4 * 0 + 0) ∧ (n = 1 → 4 * 0 + 3 < 4 * s.dma.landed ∧ 4 * s.dma.landed ≤ 4 * 0 + 4) := by
  refine ⟨by rintro u rfl; decide, rfl, ?_⟩
  rintro s fs n (rfl | rfl) (rfl | rfl | rfl) (rfl | rfl) <;>
    exact ⟨rfl, by decide, by decide, List.pairwise_pair.2 (by unfold Frag.Disjoint; decide), ⟨_, rfl, by decide, by decide⟩, by decide,
      by decide, by decide⟩

/-- A read of RING's last word with a batch that writes it in flight, and, with none, a consumer's 2-byte read outside the window. -/
theorem witness_UnspecifiedBytesReadAsAnyValue :
    (∀ s : State,
      s = { reading with dma.req := { lba := 0, count := 1, frags := [{ dest := 0x01000600, words := 128 }] } } →
      BufferReadAllowed s .host 0x010007FC 4 ∧ s.unspecified .host ((0x010007FC : Word).toNat + 3) = true)
      ∧ BufferReadAllowed running .disp1 0x01000046 2 ∧ running.inFlight ((0x01000046 : Word).toNat + 0) = false
      ∧ running.unspecified .disp1 ((0x01000046 : Word).toNat + 0) = true := by
  unfold BufferReadAllowed InHdrbuf InAud InRing
  refine ⟨?_, by decide, by decide, by decide⟩
  rintro s rfl
  decide

/-! ## Witnesses: registers, events, resets -/

theorem witness_ReadsAndRefusalsChangeNothing :
    (0x02 : Word).toNat % 4 ≠ 0 ∧ ¬((3 : Nat) = 1 ∨ (3 : Nat) = 2 ∨ (3 : Nat) = 4)
      ∧ ((0xFE : Word).toNat < 0x100 ∧ (2 : Nat) ≠ 4) ∧ ¬Mapped Config.params (0x100 : Word).toNat
      ∧ ¬Mapped Config.params (0x01000800 : Word).toNat ∧ 0x100 ≤ (0x01000000 : Word).toNat := by
  unfold Mapped InHdrbuf InRowtab InAud InRing
  decide

theorem witness_BufferReadsAreLittleEndian :
    (BufferReadAllowed base .host 0x010007FC 4 ∧ ∀ i < 4, base.unspecified .host ((0x010007FC : Word).toNat + i) = false)
      ∧ (BufferReadAllowed base .disp0 0x000011FF 1 ∧ base.unspecified .disp0 ((0x000011FF : Word).toNat + 0) = false)
      ∧ (∀ s : State, s = { base with slot1 := { queuedSlot with given := true } } →
        BufferReadAllowed s .aud 0x002003FE 2 ∧ ∀ i < 2, s.unspecified .aud ((0x002003FE : Word).toNat + i) = false)
      ∧ (SyncInv running ∧ 1 < distN running.cfg.rowSlots running.win.validFrom.toNat running.win.validTo.toNat
        ∧ 99 < distN running.cfg.ringWords (running.startOf 1) (running.startOf 2)
        ∧ ∃ t, step { running with env.turns := [.storLand 128] } = .next t)
      ∧ Reader.host ≠ .aud ∧ base.rt.length = base.cfg.rowSlots ∧ 7 < base.cfg.rowSlots
      ∧ (3 + 1 ≤ 4 ∧ 3 % 1 = 0) ∧ (2 + 2 ≤ 4 ∧ 2 % 2 = 0) ∧ (0 + 4 ≤ 4 ∧ 0 % 4 = 0) :=
  ⟨by unfold BufferReadAllowed InHdrbuf InAud InRing; decide, by unfold BufferReadAllowed InHdrbuf InAud InRing; decide,
    by rintro s rfl; unfold BufferReadAllowed InHdrbuf InAud InRing; decide, ⟨running_sync, by decide, by decide, _, rfl⟩, by decide⟩

theorem witness_RegisterWritesSetTheirFields :
    (0xFFFFFFFD : Word).getLsbD 1 = false ∧ (0xFC : Word).toNat < 0x100 ∧ (0xFC : Word).toNat % 4 = 0
      ∧ (0xFC : Word) ∉ [0x04, 0x0C, 0x14, 0x44, 0x48] ∧ (0x00 : Word) ∉ [0x04, 0x0C, 0x14, 0x44, 0x48] := by decide

theorem witness_PowerOnResetValues : base = State.powerOn Config.params ∧ (0xFC < 0x100 ∧ 0xFC % 4 = 0) ∧ (0x00 < 0x100 ∧ 0x00 % 4 = 0) :=
  ⟨rfl, by decide⟩

theorem witness_RegisterReadsShowTheState :
    Reader.disp1 ≠ .aud ∧ (0x08 < 0x100 ∧ 0x08 % 4 = 0) ∧ (0xFC < 0x100 ∧ 0xFC % 4 = 0) ∧ (0x00 < 0x100 ∧ 0x00 % 4 = 0) := by decide

theorem witness_SoftResetKeepsTheReadInFlight : (0x00000003 : Word).getLsbD 1 = true ∧ reading.dma.busy = true := by decide

theorem witness_DesyncResetClearsThePipeline :
    (Event.desyncRow = .desyncRow ∨ Event.desyncRow = .desyncUnderrun)
      ∧ (({ base with slot1 := { queuedSlot with given := true } } : State).slot 1).given = true ∧ (base.slot 0).given = false := by
  decide

/-! ## Witnesses: invariants -/

theorem witness_SyncContractIsKept : SyncInv running ∧ ∃ t, step { running with env.turns := [.dec] } = .next t :=
  ⟨running_sync, _, rfl⟩

theorem witness_IndicesMoveForward :
    SyncInv running ∧ ∃ t, step { running with env.turns := [.display .disp0 0x22000003] } = .next t :=
  ⟨running_sync, _, rfl⟩

theorem witness_SyncContractGivesTheWindow : SyncInv running ∧ running.dsp.showing = true ∧ running.next.valid = true :=
  ⟨running_sync, by decide, by decide⟩

theorem witness_MemoryStaysCanonical :
    Memory.wf (withHeader running (h0Words 70)).mem = true
      ∧ ∃ t, step { withHeader running (h0Words 70) with env.turns := [.storLand 8] } = .next t :=
  ⟨by decide, _, rfl⟩

theorem witness_OutstandingReadIsPolled :
    (running.dma.busy = true ∧ ReadPolled running) ∧ ∃ t, step { running with env.turns := [.storComplete] } = .next t := by
  refine ⟨⟨by decide, ?_⟩, _, rfl⟩
  unfold ReadPolled
  decide

theorem witness_SpeedsAndRowOffsetsStayInRange :
    (SpeedsLegal running ∧ RowTableOk running) ∧ ∃ t, step { running with env.turns := [.hostWrite 0x0C 4 0x0200FFF0] } = .next t := by
  refine ⟨⟨?_, rowTableOk_of _ (by decide) (by decide)⟩, _, rfl⟩
  unfold SpeedsLegal
  decide

/-- Steps of DEC that change `S.state` and `RT`, and each of the two resets. -/
theorem witness_WritersOfStateAndRowTable :
    (∃ t, step { deco .hitEnd with env.turns := [.dec] } = .next t ∧ t.fsm.state ≠ DecState.hitEnd)
      ∧ (∃ t, step { planning2 with env.turns := [.dec] } = .next t ∧ t.rt ≠ planning2.rt)
      ∧ (∃ t, step { running with env.turns := [.hostWrite 0x04 4 2] } = .next t ∧ t.fsm.state ≠ running.fsm.state ∧ t.rt ≠ running.rt)
      ∧ ∃ t, step { running with env.turns := [.display .vt 0x23000000] } = .next t ∧ t.fsm.state ≠ running.fsm.state
          ∧ t.rt ≠ running.rt := by
  refine ⟨⟨_, rfl, by decide⟩, ⟨_, rfl, by decide⟩, ⟨_, rfl, by decide⟩, ⟨_, rfl, by decide⟩⟩

end Sys2Proof.Tests
end

section
/-! PROOFS. The decoder's verdict at a port, how a word reaches `exec` through each port, and the step as the turn that is due
(spec/30_encoding.md R150 to R155; spec/20_memory.md R116). -/

namespace Sys2Proof

theorem operationOf_opc {opc : Nat} {sel : Byte} {arg : Half} {i : Instr} (h : operationOf opc sel arg = some i) :
    opc = i.opc := by
  unfold operationOf at h
  split at h <;> cases h <;> rfl

/-- R151, R153: the opcode of an operation lies in its port's range. -/
theorem portOfOpc_opc (i : Instr) : portOfOpc i.opc = some i.port := by
  cases i <;> rfl

/-- A word decodes to an operation exactly when it passes R155's three checks. -/
theorem decode_eq_instr_iff {p : Port} {w : Word} {i : Instr} :
    decode p w = .instr i ↔ operationOf (opcOf w) (selOf w) (argOf w) = some i ∧ portOfOpc (opcOf w) = some p
      ∧ mustBeZeroOk i (selOf w) (argOf w) = true := by
  unfold decode
  cases operationOf (opcOf w) (selOf w) (argOf w) with
  | none => simp
  | some j =>
    by_cases hp : portOfOpc (opcOf w) = some p
    · cases hz : mustBeZeroOk j (selOf w) (argOf w) with
      | true => simpa [hp, hz] using fun hj : j = i => hj ▸ hz
      | false => simpa [hp, hz] using fun hj : j = i => hj ▸ hz
    · simp [hp]

/-- R151: a word is legal only at the port of the operation it decodes to. -/
theorem port_eq_of_decode {p : Port} {w : Word} {i : Instr} (h : decode p w = .instr i) : i.port = p := by
  obtain ⟨hop, hport, -⟩ := decode_eq_instr_iff.mp h
  rw [operationOf_opc hop, portOfOpc_opc] at hport
  exact Option.some.inj hport

/-- A table word that reads as an operation is delivered at that operation's port and decodes to it there. -/
theorem decodeTableWord_eq_some {nbits n : Nat} {i : Instr} (h : decodeTableWord nbits n = some i) :
    tablePort (tableWord nbits n) = i.port ∧ decode i.port (tableWord nbits n) = .instr i := by
  unfold decodeTableWord at h
  split at h
  next j hd =>
    obtain rfl := Option.some.inj h
    have hp := port_eq_of_decode hd
    exact ⟨hp.symm, hp ▸ hd⟩
  next => cases h

end Sys2Proof

namespace Sys2Proof.Machine

/-! ## A legal word at each port -/

theorem State.commandPort_of_decode {w : Word} {i : Instr} (s : State) (h : decode .host w = .instr i) :
    s.commandPort w = exec i s := by
  simp only [State.commandPort, h]

theorem State.displayPort_of_decode {w : Word} {i : Instr} (s : State) (c : Caller) (h : decode .display w = .instr i) :
    s.displayPort c w = exec i { s with env.caller := c } := by
  simp only [State.displayPort, h]

theorem State.audioPort_of_decode {w : Word} {i : Instr} (s : State) (h : decode .audio w = .instr i) :
    s.audioPort w = exec i s := by
  simp only [State.audioPort, h]

/-- spec/40_commands.md R230: HOST's word write at offset 0x0C is accepted and reaches the command port. -/
theorem State.runTurn_writeCmd (s : State) (w : Word) : s.runTurn (.hostWrite 0x0C 4 w) = s.commandPort w := rfl

/-- A legal word delivered at the port of its opcode is executed, at the display port with DISP0 as the caller. -/
theorem State.runTurn_turnOf {w : Word} {i : Instr} (s : State) (hp : tablePort w = i.port)
    (h : decode i.port w = .instr i) :
    s.runTurn (turnOf w) = exec i { s with env.caller := if i.port = .display then .disp0 else s.env.caller } := by
  unfold turnOf
  rw [hp]
  cases hport : i.port with
  | host => exact s.commandPort_of_decode (hport ▸ h)
  | display => exact s.displayPort_of_decode .disp0 (hport ▸ h)
  | audio => exact s.audioPort_of_decode (hport ▸ h)

/-! ## The turn that is due -/

theorem step_of_turns_cons {s : State} {turn : Turn} {ts : List Turn} (h : s.env.turns = turn :: ts) :
    step s = State.runTurn { s with env.turns := ts } turn := by
  rw [step_eq, State.turnTaken, State.nextTurn, h]

theorem step_of_turns_nil {s : State} (h : s.env.turns = []) :
    step s = State.runTurn { s with env.picks := s.env.picks + 1 } (Config.freeTurn s.env.picks) := by
  rw [step_eq, State.turnTaken, State.nextTurn, h]

/-- The turn that `withFetchWord` places is the one the next step takes, and taking it leaves the state it was placed in. -/
theorem step_withFetchWord (s : State) (nbits n : Nat) :
    step (s.withFetchWord nbits n) = s.runTurn (turnOf (tableWord nbits n)) :=
  step_of_turns_cons rfl

/-- Settles O5: each step is the turn that is due, and each port's turn hands a legal word to `exec`. -/
theorem stepRunsTheDecodedOperation : Obligations.StepRunsTheDecodedOperation := by
  intro s ts w i
  refine ⟨fun hd ht => ?host, fun c hd ht => ?display, fun hd ht => ?audio, fun nbits n hd => ?table,
    fun turn ht => step_of_turns_cons ht, step_of_turns_nil⟩
  case host => rw [step_of_turns_cons ht, State.runTurn_writeCmd, State.commandPort_of_decode _ hd]
  case display => exact (step_of_turns_cons ht).trans (State.displayPort_of_decode _ c hd)
  case audio => exact (step_of_turns_cons ht).trans (State.audioPort_of_decode _ hd)
  case table =>
    obtain ⟨hport, hdecode⟩ := decodeTableWord_eq_some hd
    rw [step_withFetchWord, State.runTurn_turnOf s hport hdecode]

end Sys2Proof.Machine
end

section
/-! PROOFS. What one step of DEC does to its own state, to the speeds held and to the row-offset table
(spec/41_decoder_fsm.md R280 to R299; spec/10_state.md R33). -/

namespace Sys2Proof.Machine

/-! ## One DEC step, state by state -/

/-- What the step from `s` to `t` has in common with every DEC step: it takes a transition of R299's table; a speed held after it was
held before it (R284 copies the control's into the next frame); only PREPPING_VIDEO's commit (R356) writes the row table. -/
structure DecMove (s t : State) : Prop where
  transition : (s.fsm.state, t.fsm.state) ∈ decTransitions
  en : t.fsm.en = s.fsm.en
  cfg : t.cfg = s.cfg
  control : t.ctl.speed = s.ctl.speed
  next : t.next.speed = s.next.speed ∨ t.next.speed = s.ctl.speed
  disp : t.disp.speed = s.disp.speed
  rt : t.rt = s.rt ∨ (s.fsm.state = .preppingVideo ∧ ∃ rows : List Nat, t.rt = rows.foldl s.commitRow s.rt)

/-- The usual DEC step: work that leaves DEC's state tag, the speeds and the row table, then a transition to `st`. -/
theorem DecMove.goto {s u : State} {src st : DecState} (hs : s.fsm.state = src)
    (htr : (src, st) ∈ decTransitions := by decide) (hen : u.fsm.en = s.fsm.en := by rfl) (hcfg : u.cfg = s.cfg := by rfl)
    (hctl : u.ctl.speed = s.ctl.speed := by rfl) (hnext : u.next.speed = s.next.speed := by rfl)
    (hdisp : u.disp.speed = s.disp.speed := by rfl) (hrt : u.rt = s.rt := by rfl) : DecMove s (u.goto st) :=
  ⟨hs ▸ htr, hen, hcfg, hctl, .inl hnext, hdisp, .inl hrt⟩

/-- R52: a write through `F` that keeps its speed changes no speed of either frame record. -/
theorem State.setFrame_speeds (s : State) {f : FrameRec} (h : f.speed = s.frame.speed) :
    (s.setFrame f).next.speed = s.next.speed ∧ (s.setFrame f).disp.speed = s.disp.speed := by
  unfold State.frame at h
  cases hd : s.decShown <;> simp_all

theorem decInit_move {s t : State} (hs : s.fsm.state = .init) (h : decInit s = some t) : DecMove s t := by
  unfold decInit at h
  split at h
  · cases h
  · split at h <;> obtain rfl := Option.some.inj h
    · unfold State.adopt
      simp only []
      split <;> exact .goto hs
    · exact ⟨by simp [hs, decTransitions], rfl, rfl, rfl, .inl rfl, rfl, .inl rfl⟩

theorem decNewFrame_move {s t : State} (hs : s.fsm.state = .newFrame) (h : decNewFrame s = some t) : DecMove s t := by
  unfold decNewFrame at h
  split at h
  · cases h
  · split at h <;> obtain rfl := Option.some.inj h <;> exact .goto hs

theorem decNeedHeader_move {s t : State} (hs : s.fsm.state = .needHeader) (h : decNeedHeader s = some t) : DecMove s t := by
  unfold decNeedHeader at h
  split at h
  · cases h
  · obtain rfl := Option.some.inj h
    exact .goto hs

theorem State.formatError_move {s : State} (v : Nat) (hs : s.fsm.state = .readingHeader) : DecMove s (s.formatError v) := by
  unfold State.formatError
  simp only []
  split <;> exact .goto hs

theorem decReadingHeader_move {s t : State} (hs : s.fsm.state = .readingHeader) (h : decReadingHeader s = some t) :
    DecMove s t := by
  unfold decReadingHeader at h
  split at h
  · cases h
  · split at h <;> obtain rfl := Option.some.inj h
    · exact ⟨by simp [hs, decTransitions], rfl, rfl, rfl, .inr rfl, rfl, .inl rfl⟩
    · exact State.formatError_move _ hs

theorem decNeedVideo_move {s t : State} (hs : s.fsm.state = .needVideo) (h : decNeedVideo s = some t) : DecMove s t := by
  obtain rfl := Option.some.inj h
  exact .goto hs

theorem decPreppingVideo_move {s t : State} (hs : s.fsm.state = .preppingVideo) (h : decPreppingVideo s = some t) :
    DecMove s t := by
  unfold decPreppingVideo at h
  split at h
  · cases h
  · unfold State.planAndIssue at h
    split at h
    · cases h
    · obtain rfl := Option.some.inj h
      exact ⟨by simp [hs, decTransitions], rfl, rfl, rfl, .inl rfl, rfl, .inr ⟨hs, _, rfl⟩⟩

/-- R288: the three transitions out of READING_VIDEO. -/
theorem State.afterVideo_mem (s : State) : (.readingVideo, s.afterVideo) ∈ decTransitions := by
  unfold State.afterVideo
  split
  · decide
  · split <;> decide

theorem decReadingVideo_move {s t : State} (hs : s.fsm.state = .readingVideo) (h : decReadingVideo s = some t) :
    DecMove s t := by
  unfold decReadingVideo at h
  split at h
  · cases h
  · obtain rfl := Option.some.inj h
    exact .goto hs s.afterVideo_mem

theorem decAwaitAudioBuffer_move {s t : State} (hs : s.fsm.state = .awaitAudioBuffer) (h : decAwaitAudioBuffer s = some t) :
    DecMove s t := by
  obtain ⟨k, -, rfl⟩ := Option.map_eq_some_iff.mp h
  have hf := fun v => (s.setSlot k v).setFrame_speeds (f := { s.frame with aslot := some k }) rfl
  exact .goto hs (hnext := (hf _).1) (hdisp := (hf _).2)

theorem decNeedAudio_move {s t : State} (hs : s.fsm.state = .needAudio) (h : decNeedAudio s = some t) : DecMove s t := by
  unfold decNeedAudio at h
  split at h
  · cases h
  · split at h
    · cases h
    · obtain rfl := Option.some.inj h
      exact .goto hs

theorem decReadingAudio_move {s t : State} (hs : s.fsm.state = .readingAudio) (h : decReadingAudio s = some t) :
    DecMove s t := by
  unfold decReadingAudio at h
  split at h
  · cases h
  · obtain rfl := Option.some.inj h
    exact .goto hs

theorem decPostProcessAudio_move {s t : State} (hs : s.fsm.state = .postProcessAudio) (h : decPostProcessAudio s = some t) :
    DecMove s t := by
  unfold decPostProcessAudio at h
  split at h
  · cases h
  · rename_i k _
    obtain rfl := Option.some.inj h
    obtain ⟨a, b, o, hh⟩ := State.tryHandoff_eq
      ((s.postProcess k).setSlot k { (s.postProcess k).slot k with state := .queued }) k
    rw [hh, s.postProcess_eq k]
    exact .goto hs

theorem decAudioReady_move {s t : State} (hs : s.fsm.state = .audioReady) (h : decAudioReady s = some t) : DecMove s t := by
  obtain rfl := Option.some.inj h
  exact .goto hs

theorem decFrameReady_move {s t : State} (hs : s.fsm.state = .frameReady) (h : decFrameReady s = some t) : DecMove s t := by
  obtain ⟨hnext, hdisp⟩ := s.setFrame_speeds (f := { s.frame with ready := true }) rfl
  unfold decFrameReady at h
  simp only [] at h
  split at h <;> obtain rfl := Option.some.inj h <;> exact .goto hs (hnext := hnext) (hdisp := hdisp)

theorem decHitEnd_move {s t : State} (hs : s.fsm.state = .hitEnd) (h : decHitEnd s = some t) : DecMove s t := by
  obtain rfl := Option.some.inj h
  exact .goto hs

theorem decError_move {s t : State} (hs : s.fsm.state = .error) (h : decError s = some t) : DecMove s t := by
  unfold decError at h
  split at h
  · split at h
    · obtain rfl := Option.some.inj h
      exact .goto hs
    · cases h
  · obtain rfl := Option.some.inj h
    exact .goto hs

theorem decStateStep_move {s t : State} (h : decStateStep s = some t) : DecMove s t := by
  unfold decStateStep at h
  cases hs : s.fsm.state <;> rw [hs] at h
  case init => exact decInit_move hs h
  case newFrame => exact decNewFrame_move hs h
  case needHeader => exact decNeedHeader_move hs h
  case readingHeader => exact decReadingHeader_move hs h
  case needVideo => exact decNeedVideo_move hs h
  case preppingVideo => exact decPreppingVideo_move hs h
  case readingVideo => exact decReadingVideo_move hs h
  case awaitAudioBuffer => exact decAwaitAudioBuffer_move hs h
  case needAudio => exact decNeedAudio_move hs h
  case readingAudio => exact decReadingAudio_move hs h
  case postProcessAudio => exact decPostProcessAudio_move hs h
  case audioReady => exact decAudioReady_move hs h
  case frameReady => exact decFrameReady_move hs h
  case hitEnd => exact decHitEnd_move hs h
  case error => exact decError_move hs h

theorem decStep_move {s t : State} (h : decStep s = some t) : DecMove s t := decStateStep_move (decStep_some h).2

theorem DecMove.speedsLegal {s t : State} (h : DecMove s t) (hs : SpeedsLegal s) : SpeedsLegal t := by
  obtain ⟨hctl, hnext, hdisp⟩ := hs
  refine ⟨h.control ▸ hctl, ?_, h.disp ▸ hdisp⟩
  rcases h.next with hn | hn <;> rwa [hn]

theorem DecMove.rowTableOk {s t : State} (h : DecMove s t) (hs : RowTableOk s) : RowTableOk t := by
  obtain ⟨hlen, hval⟩ := hs
  unfold RowTableOk
  rcases h.rt with hrt | ⟨-, rows, hrt⟩ <;> rw [hrt, h.cfg]
  · exact ⟨hlen, hval⟩
  · exact ⟨(s.commitRows_length rows s.rt).trans hlen,
      fun v hv => (s.commitRows_mem rows s.rt v hv).elim (hval v) id⟩

/-! ## DEC's turn -/

theorem step_dec {s : State} {ts : List Turn} (h : s.env.turns = .dec :: ts) :
    step s = .next ((decStep { s with env.turns := ts }).getD { s with env.turns := ts }) :=
  step_of_turns_cons h

theorem decStep_disabled {s : State} (h : s.fsm.en = false) : decStep s = none := by
  simp [decStep, h]

/-- Settles O27: a disabled DEC holds, an enabled one takes the step of its state or holds, and each state's step takes a transition
of the table and leaves `S.en`. -/
theorem decoderTransitions : Obligations.DecoderTransitions := by
  refine ⟨fun s ts hen hts => ?disabled, fun s ts _ hts => ⟨fun t ht => ?steps, fun ht => ?holds⟩, fun s t h => ?table⟩
  case disabled => rw [step_dec hts, decStep_disabled (s := { s with env.turns := ts }) hen, Option.getD_none]
  case steps => rw [step_dec hts, ht, Option.getD_some]
  case holds => rw [step_dec hts, ht, Option.getD_none]
  case table =>
    have hen := (decStep_some h).1
    have hm := decStep_move h
    exact ⟨hm.transition, hen, hm.en.trans hen⟩

end Sys2Proof.Machine
end

section
/-! PROOFS. One step of the machine is DEC's, a whole reset, or one that writes neither DEC's state nor the row table and holds no
illegal speed (spec/10_state.md R31, R36, R46; spec/43_display_sync.md R402). -/

namespace Sys2Proof.Machine

/-! ## Steps that leave the decoder alone -/

/-- The step from `s` to `t` writes neither `S.state` nor `RT`, and holds only legal speeds if only such were held. -/
structure LeavesDecoder (s t : State) : Prop where
  cfg : t.cfg = s.cfg
  state : t.fsm.state = s.fsm.state
  rt : t.rt = s.rt
  speeds : SpeedsLegal s → SpeedsLegal t

/-- A step that keeps each of these fields leaves the decoder alone. -/
theorem LeavesDecoder.of_eq {s t : State} (hcfg : t.cfg = s.cfg := by rfl) (hstate : t.fsm.state = s.fsm.state := by rfl)
    (hrt : t.rt = s.rt := by rfl) (hctl : t.ctl.speed = s.ctl.speed := by rfl) (hnext : t.next = s.next := by rfl)
    (hdisp : t.disp = s.disp := by rfl) : LeavesDecoder s t :=
  ⟨hcfg, hstate, hrt, fun ⟨hc, hn, hd⟩ => ⟨hctl ▸ hc, hnext ▸ hn, hdisp ▸ hd⟩⟩

theorem LeavesDecoder.refl (s : State) : LeavesDecoder s s := .of_eq

theorem LeavesDecoder.trans {s t u : State} (h : LeavesDecoder s t) (h' : LeavesDecoder t u) : LeavesDecoder s u :=
  ⟨h'.cfg.trans h.cfg, h'.state.trans h.state, h'.rt.trans h.rt, h'.speeds ∘ h.speeds⟩

theorem LeavesDecoder.rowTableOk {s t : State} (h : LeavesDecoder s t) (hs : RowTableOk s) : RowTableOk t := by
  unfold RowTableOk
  rwa [h.rt, h.cfg]

theorem State.raise_leaves (s : State) (e : Event) : LeavesDecoder s (s.raise e) := .of_eq

theorem State.emit_leaves (s : State) (o : Output) : LeavesDecoder s (s.emit o) := .of_eq

theorem State.respond_leaves (s : State) (w : Word) : LeavesDecoder s (s.respond w) := s.emit_leaves _

theorem State.setSlot_leaves (s : State) (k : Fin 2) (v : AudioSlot) : LeavesDecoder s (s.setSlot k v) :=
  .of_eq

theorem State.storLand_leaves (s : State) (n : Nat) : LeavesDecoder s (s.storLand n) := by
  rw [s.storLand_eq n]
  exact .of_eq

theorem State.storComplete_leaves (s : State) : LeavesDecoder s s.storComplete := by
  rw [s.storComplete_eq]
  exact .of_eq

theorem State.busRead_leaves (s : State) (r : Reader) (addr : Word) (size : Nat) : LeavesDecoder s (s.busRead r addr size) := by
  rw [s.busRead_eq r addr size]
  exact .of_eq

/-! ## Operations -/

/-- The speed of a cleared frame record, and of the control after a soft reset. -/
theorem speedLegal_zero : speedLegal (0 : BitVec 8).toInt = true := by decide

/-- A legal speed survives the 8 bits of `S.speed`. -/
theorem speedLegal_ofInt {v : Int} (h : speedLegal v = true) : speedLegal (BitVec.ofInt 8 v).toInt = true := by
  obtain ⟨hlo, hhi⟩ : -16 ≤ v ∧ v ≤ 3 := by simpa [speedLegal] using h
  rwa [BitVec.toInt_ofInt, Int.bmod_eq_of_le (by omega) (by omega)]

theorem execSetSpeed_leaves {arg : Half} {s t : State} (h : execSetSpeed arg s = .next t) : LeavesDecoder s t := by
  unfold execSetSpeed at h
  split at h <;> obtain rfl := Host.Outcome.next.inj h
  next hl => exact ⟨rfl, rfl, rfl, fun ⟨_, hn, hd⟩ => ⟨speedLegal_ofInt hl, hn, hd⟩⟩
  next => exact s.raise_leaves _

theorem execADone_leaves {sel : Byte} {s t : State} (h : execADone sel s = .next t) : LeavesDecoder s t := by
  obtain rfl := Host.Outcome.next.inj h
  split
  · exact s.setSlot_leaves _ _
  · exact s.raise_leaves _

/-- The operations of the command and audio ports leave the decoder alone. -/
theorem exec_leaves {i : Instr} {s t : State} (hp : i.port ≠ .display) (h : exec i s = .next t) : LeavesDecoder s t := by
  have override : ∀ {c : Prop} [Decidable c] {u : State}, LeavesDecoder s u → LeavesDecoder s (if c then u else s) := by
    intro c _ u hu
    split
    · exact hu
    · exact .refl s
  have stepTo : ∀ x, LeavesDecoder s (s.stepTo x) := fun _ => .of_eq
  have switch : ∀ k, LeavesDecoder s (s.switchStream k) := fun _ => .of_eq
  cases i
  case dQvalid | dQoffset | dAdvance | dTick => exact absurd rfl hp
  case setSpeed => exact execSetSpeed_leaves h
  case aDone => exact execADone_leaves h
  all_goals obtain rfl := Host.Outcome.next.inj h
  case nop => exact .refl s
  case playPause | toggleDir | volUp | volDown => exact .of_eq
  case stepFwd | stepBack => exact override (stepTo _)
  case nextStream | prevStream => exact override (switch _)

theorem State.endTick_leaves (s : State) : LeavesDecoder s s.endTick := .of_eq

/-- R410: the frame shown takes its speed with it, and the next frame record is cleared. -/
theorem State.showNext_leaves (s : State) : LeavesDecoder s s.showNext := by
  obtain ⟨a, b, o, h⟩ := s.showNext_eq
  rw [h]
  exact ⟨rfl, rfl, rfl, fun ⟨hc, hn, _⟩ => ⟨hc, speedLegal_zero, hn⟩⟩

/-- R505: `t` is the whole desync reset of `s`, up to the response sent. -/
def DesyncResetTo (s t : State) : Prop :=
  ∃ e, (e = .desyncRow ∨ e = .desyncUnderrun) ∧ t = { s.desyncReset e with env := t.env }

theorem execDAdvance_leaves_or_resets {sel : Byte} {row : Half} {s t : State} (h : execDAdvance sel row s = .next t) :
    LeavesDecoder s t ∨ DesyncResetTo s t := by
  obtain rfl := Host.Outcome.next.inj h
  split
  · exact .inl (s.respond_leaves 0)
  · split
    · exact .inr ⟨.desyncRow, .inl rfl, rfl⟩
    · left
      simp only []
      split
      · rw [State.release_eq]
        exact .of_eq
      · exact .of_eq

theorem execDTick_leaves_or_resets {s t : State} (h : execDTick s = .next t) : LeavesDecoder s t ∨ DesyncResetTo s t := by
  obtain rfl := Host.Outcome.next.inj h
  split
  · split
    · exact .inl (s.showNext_leaves.trans (State.endTick_leaves _))
    · exact .inr ⟨.desyncUnderrun, .inr rfl, rfl⟩
  · left
    split
    · split
      · have shown : LeavesDecoder s { s with dsp.showing := true } := .of_eq
        exact shown.trans ((State.showNext_leaves _).trans (State.endTick_leaves _))
      · exact s.endTick_leaves
    · split <;> exact .of_eq

/-- An operation at the display port leaves the decoder alone or is a desync reset. -/
theorem exec_leaves_or_resets {i : Instr} {s t : State} (h : exec i s = .next t) : LeavesDecoder s t ∨ DesyncResetTo s t := by
  cases i
  case dQvalid | dQoffset =>
    obtain rfl := Host.Outcome.next.inj h
    exact .inl (s.respond_leaves _)
  case dAdvance => exact execDAdvance_leaves_or_resets h
  case dTick => exact execDTick_leaves_or_resets h
  all_goals exact .inl (exec_leaves (fun hp => by cases hp) h)

/-! ## Ports -/

theorem State.commandPort_leaves {s t : State} {w : Word} (h : s.commandPort w = .next t) : LeavesDecoder s t := by
  unfold State.commandPort at h
  split at h
  next i hd => exact exec_leaves (by simp [port_eq_of_decode hd]) h
  next => exact Host.Outcome.next.inj h ▸ s.raise_leaves _

theorem State.audioPort_leaves {s t : State} {w : Word} (h : s.audioPort w = .next t) : LeavesDecoder s t := by
  unfold State.audioPort at h
  split at h
  next i hd => exact exec_leaves (by simp [port_eq_of_decode hd]) h
  next => exact Host.Outcome.next.inj h ▸ s.raise_leaves _

theorem State.displayPort_leaves_or_resets {s t : State} {c : Caller} {w : Word} (h : s.displayPort c w = .next t) :
    LeavesDecoder s t ∨ DesyncResetTo s t := by
  have called : LeavesDecoder s { s with env.caller := c } := .of_eq
  unfold State.displayPort at h
  split at h
  · exact (exec_leaves_or_resets h).imp called.trans id
  · exact .inl (Host.Outcome.next.inj h ▸ called.trans ((State.raise_leaves _ _).trans (State.respond_leaves _ _)))

/-- R241: a register write leaves the decoder alone, but for the soft reset. -/
theorem State.writeReg_leaves_or_resets (s : State) (off : Nat) (v : Word) :
    LeavesDecoder s (s.writeReg off v) ∨ (off = 0x04 ∧ v.getLsbD 1 = true ∧ s.writeReg off v = s.softReset) := by
  unfold State.writeReg
  split
  · split
    next hv => exact .inr ⟨rfl, hv, rfl⟩
    next => exact .inl (.of_eq)
  all_goals exact .inl (.of_eq)

theorem State.hostWrite_leaves_or_resets {s t : State} {addr : Word} {size : Nat} {v : Word}
    (h : s.hostWrite addr size v = .next t) :
    LeavesDecoder s t ∨ (addr = 0x04 ∧ size = 4 ∧ v.getLsbD 1 = true ∧ t = s.softReset) := by
  unfold State.hostWrite at h
  split at h
  next haccepted =>
    have hsize : size = 4 := by simp_all [writeAccepted]
    split at h
    · exact .inl (State.commandPort_leaves h)
    · obtain rfl := Host.Outcome.next.inj h
      refine (s.writeReg_leaves_or_resets addr.toNat v).imp id fun ⟨haddr, hv, hreset⟩ => ?_
      exact ⟨BitVec.eq_of_toNat_eq haddr, hsize, hv, hreset⟩
  next => exact .inl (Host.Outcome.next.inj h ▸ s.emit_leaves _)

/-! ## One step -/

theorem State.turnTaken_leaves (s : State) : LeavesDecoder s s.turnTaken := by
  rw [s.turnTaken_eq]
  exact .of_eq

theorem DesyncResetTo.of_turnTaken {s t : State} (h : DesyncResetTo s.turnTaken t) : DesyncResetTo s t := by
  rwa [s.turnTaken_eq] at h

/-- R6, R31: what one step can be. -/
theorem step_cases {s t : State} (h : step s = .next t) :
    LeavesDecoder s t ∨ (s.nextTurn = .dec ∧ decStep s.turnTaken = some t) ∨ ResetBy s t := by
  rw [step_eq] at h
  cases hturn : s.nextTurn <;> rw [hturn] at h
  case dec =>
    obtain rfl := Host.Outcome.next.inj h
    cases hd : decStep s.turnTaken with
    | none => exact .inl s.turnTaken_leaves
    | some u => exact .inr (.inl ⟨rfl, rfl⟩)
  case hostWrite addr size v =>
    rcases State.hostWrite_leaves_or_resets h with hl | ⟨rfl, rfl, hv, ht⟩
    · exact .inl (s.turnTaken_leaves.trans hl)
    · exact .inr (.inr (.inl ⟨v, hturn, hv, ht⟩))
  case display c w =>
    rcases State.displayPort_leaves_or_resets h with hl | hr
    · exact .inl (s.turnTaken_leaves.trans hl)
    · obtain ⟨e, he, ht⟩ := hr.of_turnTaken
      exact .inr (.inr (.inr ⟨c, w, e, hturn, he, ht⟩))
  case audio w => exact .inl (s.turnTaken_leaves.trans (State.audioPort_leaves h))
  all_goals obtain rfl := Host.Outcome.next.inj h
  case busRead => exact .inl (s.turnTaken_leaves.trans (State.busRead_leaves _ _ _ _))
  case storLand => exact .inl (s.turnTaken_leaves.trans (State.storLand_leaves _ _))
  case storComplete => exact .inl (s.turnTaken_leaves.trans (State.storComplete_leaves _))

/-- Settles O60: a step that leaves the decoder alone writes neither, DEC's step is its turn's, and the rest are the resets. -/
theorem writersOfStateAndRowTable : Obligations.WritersOfStateAndRowTable := by
  intro s t h
  rcases step_cases h with hl | ⟨hturn, hd⟩ | hr
  case inl => exact ⟨fun hne => absurd hl.state hne, fun hne => absurd hl.rt hne⟩
  case inr.inl =>
    rw [s.turnTaken_eq] at hd
    have hen : s.fsm.en = true := (decStep_some hd).1
    refine ⟨fun _ => .inl ⟨hturn, hen⟩, fun hne => ?_⟩
    rcases (decStep_move hd).rt with hrt | ⟨hstate, -⟩
    · exact absurd hrt hne
    · exact .inl ⟨hturn, hen, hstate⟩
  case inr.inr => exact ⟨fun _ => .inr hr, fun _ => .inr hr⟩

/-! ## The two resets -/

/-- The row table both resets leave (R505, R551) holds `P_ROW_SLOTS` offsets 0. -/
theorem rowTableOk_of_cleared {s : State} (h : s.rt = List.replicate s.cfg.rowSlots 0) : RowTableOk s := by
  have hp := params_facts s.cfg
  refine ⟨by rw [h, List.length_replicate], fun v hv => ?_⟩
  obtain rfl : v = 0 := List.eq_of_mem_replicate (h ▸ hv)
  simpa using show 0 < s.cfg.ringWords by omega

theorem ResetBy.rowTableOk {s t : State} (h : ResetBy s t) : RowTableOk t := by
  rcases h with ⟨v, -, -, rfl⟩ | ⟨c, w, e, -, -, ht⟩
  · exact rowTableOk_of_cleared rfl
  · rw [ht]
    exact rowTableOk_of_cleared rfl

/-- The soft reset holds the speed 0 everywhere, the desync reset in the frame records; it keeps the control's. -/
theorem ResetBy.speedsLegal {s t : State} (h : ResetBy s t) (hs : SpeedsLegal s) : SpeedsLegal t := by
  rcases h with ⟨v, -, -, rfl⟩ | ⟨c, w, e, -, -, ht⟩
  · exact ⟨speedLegal_zero, speedLegal_zero, speedLegal_zero⟩
  · obtain ⟨hctl, -, -⟩ := hs
    rw [ht]
    exact ⟨hctl, speedLegal_zero, speedLegal_zero⟩

/-- Settles O55: DEC's step, the resets, and every other step keep each of the two. -/
theorem speedsAndRowOffsetsStayInRange : Obligations.SpeedsAndRowOffsetsStayInRange := by
  refine ⟨fun s t hs h => ?speeds, fun s t hs h => ?rows⟩
  case speeds =>
    rcases step_cases h with hl | ⟨-, hd⟩ | hr
    · exact hl.speeds hs
    · exact (decStep_move hd).speedsLegal (s.turnTaken_leaves.speeds hs)
    · exact hr.speedsLegal hs
  case rows =>
    rcases step_cases h with hl | ⟨-, hd⟩ | hr
    · exact hl.rowTableOk hs
    · exact (decStep_move hd).rowTableOk (s.turnTaken_leaves.rowTableOk hs)
    · exact hr.rowTableOk

end Sys2Proof.Machine
end

section
/-! PROOFS. What STOR's landing does to each byte, in parts and at once, and what a completed read leaves
(spec/20_memory.md R109 to R118; spec/70_reset_and_hazards.md R561). -/

namespace Sys2Proof.Machine

/-! ## One fragment -/

/-- Byte `a` is of a word that landing the words `[lo, hi)` writes through `f`, whose first word has number `w`. -/
def Frag.landsAt (f : Frag) (lo hi w a : Nat) : Bool :=
  f.dest ≠ discard ∧ f.dest.toNat ≤ a ∧ a < f.dest.toNat + 4 * f.words
    ∧ 4 * lo ≤ 4 * w + (a - f.dest.toNat) ∧ 4 * w + (a - f.dest.toNat) < 4 * hi

/-- What landing the words `[lo, hi)` does to the fragment whose first word has number `w`. -/
def landFrag (src : Nat → Byte) (lo hi : Nat) (f : Frag) (w : Nat) (m : Mem) : Mem :=
  if f.dest = discard ∨ min hi (w + f.words) ≤ max lo w then m
  else Memory.write m (f.dest.toNat + 4 * (max lo w - w))
         ((List.range (4 * (min hi (w + f.words) - max lo w))).map fun j => src (4 * max lo w + j))

theorem landWords_cons (src : Nat → Byte) (lo hi : Nat) (f : Frag) (fs : List Frag) (w : Nat) (m : Mem) :
    landWords src lo hi (f :: fs) w m = landWords src lo hi fs (w + f.words) (landFrag src lo hi f w m) := rfl

/-- A byte that lands holds its byte of the data; every other byte is as before. -/
theorem Memory.read?_landFrag (src : Nat → Byte) (lo hi : Nat) (f : Frag) (w : Nat) (m : Mem) (a : Nat) :
    Memory.read? (landFrag src lo hi f w m) a =
      if f.landsAt lo hi w a then some (src (4 * w + (a - f.dest.toNat))) else Memory.read? m a := by
  simp only [landFrag, Frag.landsAt, decide_eq_true_eq]
  split
  next hnone => rw [if_neg fun ⟨hd, h⟩ => hnone.elim hd fun h' => by omega]
  next hsome =>
    obtain ⟨hd, hlt⟩ := not_or.mp hsome
    rw [Memory.read?_write, List.length_map, List.length_range]
    refine if_ctx_congr (by simp only [hd, ne_eq, not_false_iff, true_and]; omega) (fun h => ?_) fun _ => rfl
    rw [List.getElem?_map, List.getElem?_range (by omega), Option.map_some]
    congr 2
    omega

/-- The words before those that land are left as they were. -/
theorem landFrag_of_end_le {lo w : Nat} {f : Frag} (src : Nat → Byte) (hi : Nat) (m : Mem) (h : w + f.words ≤ lo) :
    landFrag src lo hi f w m = m :=
  if_pos (.inr (by omega))

/-- Where the landing ends does not matter to a fragment that ends before. -/
theorem landFrag_congr_hi {hi hi' w : Nat} {f : Frag} (src : Nat → Byte) (lo : Nat) (m : Mem) (h : w + f.words ≤ hi)
    (h' : w + f.words ≤ hi') : landFrag src lo hi f w m = landFrag src lo hi' f w m := by
  unfold landFrag
  rw [Nat.min_eq_right h, Nat.min_eq_right h']

/-- The bytes of `[lo, hi)` are those of `[lo, mid)` and those of `[mid, hi)`. -/
theorem Frag.landsAt_split {f : Frag} {lo mid hi w a : Nat} (h : lo ≤ mid) (h' : mid ≤ hi) :
    f.landsAt lo hi w a = (f.landsAt mid hi w a || f.landsAt lo mid w a) := by
  simp only [Frag.landsAt, ← Bool.decide_or, decide_eq_decide]
  rw [← and_or_left]
  exact and_congr_right fun _ => by omega

/-! ## The fragments of a request -/

theorem landWords_append (src : Nat → Byte) (lo hi : Nat) (fs gs : List Frag) (w : Nat) (m : Mem) :
    landWords src lo hi (fs ++ gs) w m =
      landWords src lo hi gs (w + (fs.map (·.words)).sum) (landWords src lo hi fs w m) := by
  induction fs generalizing w m with
  | nil => rfl
  | cons f fs ih => simp only [List.cons_append, landWords_cons, ih, List.map_cons, List.sum_cons, Nat.add_assoc]

/-- Nothing lands of fragments whose words all come after those that land. -/
theorem landWords_of_end_le {hi w : Nat} (src : Nat → Byte) (lo : Nat) (fs : List Frag) (m : Mem) (h : hi ≤ max lo w) :
    landWords src lo hi fs w m = m := by
  induction fs generalizing w m with
  | nil => rfl
  | cons f fs ih => rw [landWords_cons, ih _ (by omega), landFrag, if_pos (.inr (by omega))]

/-- Where the landing starts does not matter to fragments that start after. -/
theorem landWords_congr_lo {lo lo' w : Nat} (src : Nat → Byte) (hi : Nat) (fs : List Frag) (m : Mem) (h : lo ≤ w)
    (h' : lo' ≤ w) : landWords src lo hi fs w m = landWords src lo' hi fs w m := by
  induction fs generalizing w m with
  | nil => rfl
  | cons f fs ih =>
    rw [landWords_cons, landWords_cons, ih _ (by omega) (by omega), landFrag, landFrag, Nat.max_eq_right h,
      Nat.max_eq_right h']

/-- What a byte holds after a landing depends on what that byte held before only. -/
theorem Memory.read?_landWords_congr {m m' : Mem} {a : Nat} (src : Nat → Byte) (lo hi : Nat) (fs : List Frag) (w : Nat)
    (h : Memory.read? m a = Memory.read? m' a) :
    Memory.read? (landWords src lo hi fs w m) a = Memory.read? (landWords src lo hi fs w m') a := by
  induction fs generalizing w m m' with
  | nil => exact h
  | cons f fs ih =>
    rw [landWords_cons, landWords_cons]
    exact ih _ (by rw [Memory.read?_landFrag, Memory.read?_landFrag, h])

/-- Landing `[lo, mid)` and then `[mid, hi)` lands `[lo, hi)`, for every byte: the fragments that end before `mid` are done by the first
part, those that start after it are left to the second, and the one across it gets its two halves. -/
theorem Memory.read?_landWords_split {lo mid hi : Nat} (src : Nat → Byte) (fs : List Frag) (w : Nat) (m : Mem) (a : Nat)
    (h : lo ≤ mid) (h' : mid ≤ hi) :
    Memory.read? (landWords src mid hi fs w (landWords src lo mid fs w m)) a =
      Memory.read? (landWords src lo hi fs w m) a := by
  induction fs generalizing w m with
  | nil => rfl
  | cons f fs ih =>
    simp only [landWords_cons]
    rcases Nat.le_total (w + f.words) mid with hend | hend
    · have hfirst : landFrag src lo hi f w m = landFrag src lo mid f w m :=
        landFrag_congr_hi src lo m (hend.trans h') hend
      rw [landFrag_of_end_le src hi _ hend, hfirst, ih]
    · rw [landWords_of_end_le src lo fs _ (by omega : mid ≤ max lo (w + f.words)),
        landWords_congr_lo src hi fs _ hend (h.trans hend)]
      apply Memory.read?_landWords_congr
      cases hlate : f.landsAt mid hi w a <;> simp [Memory.read?_landFrag, Frag.landsAt_split h h', hlate]

/-- A byte of one fragment is no byte of a fragment disjoint from it. -/
theorem Frag.Disjoint.outside {f g : Frag} {i : Nat} (h : f.Disjoint g ∨ g.Disjoint f) (hf : f.dest ≠ discard)
    (hg : g.dest ≠ discard) (hi : i < 4 * f.words) :
    f.dest.toNat + i < g.dest.toNat ∨ g.dest.toNat + 4 * g.words ≤ f.dest.toNat + i := by
  rcases h with (h | h | h) | (h | h | h)
  case inl.inl | inr.inr.inl => exact absurd h hf
  case inl.inr.inl | inr.inl => exact absurd h hg
  all_goals omega

/-- Byte `i` of a fragment, when no two destinations overlap: the fragment's words follow those of the fragments before it. -/
theorem Memory.read?_landWords_frag {pre post : List Frag} {f : Frag} {i : Nat} (src : Nat → Byte) (lo hi : Nat) (m : Mem)
    (hdisj : (pre ++ f :: post).Pairwise Frag.Disjoint) (hf : f.dest ≠ discard) (hi' : i < 4 * f.words) :
    Memory.read? (landWords src lo hi (pre ++ f :: post) 0 m) (f.dest.toNat + i) =
      if 4 * lo ≤ 4 * (pre.map (·.words)).sum + i ∧ 4 * (pre.map (·.words)).sum + i < 4 * hi then
        some (src (4 * (pre.map (·.words)).sum + i))
      else Memory.read? m (f.dest.toNat + i) := by
  obtain ⟨-, hfpost, hpre⟩ := List.pairwise_append.mp hdisj
  have hpost := (List.pairwise_cons.mp hfpost).1
  rw [landWords_append, landWords_cons, Nat.zero_add,
    landWords_outside _ _ _ post _ _ _ fun g hg hgd => Frag.Disjoint.outside (.inl (hpost g hg)) hf hgd hi',
    Memory.read?_landFrag,
    landWords_outside _ _ _ pre _ _ _ fun g hg hgd =>
      Frag.Disjoint.outside (.inr (hpre g hg f List.mem_cons_self)) hf hgd hi']
  simp [Frag.landsAt, hf, hi']

/-! ## STOR's steps -/

theorem State.storLand_idle {s : State} (n : Nat) (h : s.dma.busy = false) : s.storLand n = s := by
  simp [State.storLand, h]

theorem State.storLand_busy {s : State} (n : Nat) (h : s.dma.busy = true) :
    s.storLand n =
      { s with
        mem := landWords (s.sectorByte s.dma.req.lba) s.dma.landed (min (s.dma.landed + n) s.dma.req.words) s.dma.req.frags 0
          s.mem
        dma.landed := min (s.dma.landed + n) s.dma.req.words } := by
  rw [State.storLand, if_pos h]

theorem State.storComplete_waits {s : State} (h : s.dma.busy = false ∨ s.dma.landed ≠ s.dma.req.words) :
    s.storComplete = s := by
  rw [State.storComplete, if_neg]
  rcases h with h | h <;> simp [h]

theorem State.storComplete_done {s : State} (hb : s.dma.busy = true) (hl : s.dma.landed = s.dma.req.words) :
    s.storComplete = { (if s.dma.stale then s.leaveStale else s) with dma := { s.dma with busy := false, stale := false } } := by
  rw [State.storComplete, if_pos (by simp [hb, hl])]

/-- A byte depends on what is stored at its address only. -/
theorem State.bufByte_congr_read {s t : State} {a : Nat} (h : Memory.read? t.mem a = Memory.read? s.mem a) :
    t.bufByte a = s.bufByte a := by
  unfold State.bufByte
  rw [h]

/-- Settles O43: the first part ends where the second starts, and where both together end. -/
theorem landingInPartsIsLandingAtOnce : Obligations.LandingInPartsIsLandingAtOnce := by
  intro s m n a
  cases hb : s.dma.busy with
  | false => simp only [State.storLand_idle _ hb, and_self]
  | true =>
    rw [s.storLand_busy m hb, s.storLand_busy (m + n) hb, State.storLand_busy n (by exact hb)]
    simp only []
    have hend : min (min (s.dma.landed + m) s.dma.req.words + n) s.dma.req.words
        = min (s.dma.landed + (m + n)) s.dma.req.words := by omega
    rw [hend]
    refine ⟨State.bufByte_congr_read ?_, rfl⟩
    rcases Nat.le_total s.dma.landed s.dma.req.words with hl | hl
    · exact Memory.read?_landWords_split _ _ _ _ _ (by omega) (by omega)
    · simp only []
      rw [landWords_of_end_le _ _ _ _ (by omega), landWords_of_end_le _ _ _ _ (by omega), landWords_of_end_le _ _ _ _ (by omega)]

/-! ## A read landed and completed -/

/-- What landing the rest of a read and completing it makes of the state: the rest of the data lands, and, on a read that a reset made
stale, free bytes over all of it. -/
def State.readDone (s : State) : State :=
  let landed := landWords (s.sectorByte s.dma.req.lba) s.dma.landed s.dma.req.words s.dma.req.frags 0 s.mem
  { s with
    dma := { busy := false, landed := s.dma.req.words, stale := false, req := s.dma.req }
    mem := if s.dma.stale then
        landWords (fun i => Config.freeByte (s.env.draws + i)) 0 s.dma.req.words s.dma.req.frags 0 landed
      else landed
    env.draws := if s.dma.stale then s.env.draws + 4 * s.dma.req.words else s.env.draws }

/-- R112: once a part lands that is as long as what is left of the read, the completion is taken. -/
theorem State.storLand_storComplete {s : State} {m : Nat} (hb : s.dma.busy = true)
    (hm : s.dma.req.words ≤ s.dma.landed + m) : (s.storLand m).storComplete = s.readDone := by
  rw [s.storLand_busy m hb, Nat.min_eq_right hm]
  refine (State.storComplete_done (by exact hb) rfl).trans ?_
  cases hs : s.dma.stale <;> simp [hs, State.readDone, State.leaveStale]

theorem State.readDone_bufByte_outside {s : State} {a : Nat}
    (h : ∀ f ∈ s.dma.req.frags, f.dest ≠ discard → a < f.dest.toNat ∨ f.dest.toNat + 4 * f.words ≤ a) :
    s.readDone.bufByte a = s.bufByte a := by
  refine State.bufByte_congr_read ?_
  unfold State.readDone
  simp only []
  split
  · rw [landWords_outside _ _ _ _ _ _ _ h, landWords_outside _ _ _ _ _ _ _ h]
  · rw [landWords_outside _ _ _ _ _ _ _ h]

/-- What byte `i` of a fragment holds then: a free byte after a stale read, else its byte of the data if it had still to land. -/
theorem State.readDone_bufByte_frag {s : State} {pre post : List Frag} {f : Frag} {i : Nat}
    (hsum : (s.dma.req.frags.map (·.words)).sum = s.dma.req.words) (hdisj : s.dma.req.frags.Pairwise Frag.Disjoint)
    (hfrags : s.dma.req.frags = pre ++ f :: post) (hf : f.dest ≠ discard) (hi : i < 4 * f.words) :
    s.readDone.bufByte (f.dest.toNat + i) =
      if s.dma.stale then Config.freeByte (s.env.draws + (4 * (pre.map (·.words)).sum + i))
      else if 4 * s.dma.landed ≤ 4 * (pre.map (·.words)).sum + i then
        s.sectorByte s.dma.req.lba (4 * (pre.map (·.words)).sum + i)
      else s.bufByte (f.dest.toNat + i) := by
  have hlt : 4 * (pre.map (·.words)).sum + i < 4 * s.dma.req.words := by
    rw [← hsum, hfrags, List.map_append, List.map_cons, List.sum_append, List.sum_cons]
    omega
  rw [hfrags] at hdisj
  unfold State.readDone State.bufByte
  simp only [hfrags]
  cases s.dma.stale
  · simp only [Bool.false_eq_true, if_false, Memory.read?_landWords_frag _ _ _ _ hdisj hf hi, hlt, and_true]
    split <;> rfl
  · simp [Memory.read?_landWords_frag _ _ _ _ hdisj hf hi, hlt]

/-- Settles O44: the rest of a read landed and completed is `State.readDone`, read off byte by byte. -/
theorem landedDataReadsBack : Obligations.LandedDataReadsBack := by
  refine ⟨fun s m hb hm hsum hdisj => ?done, fun s _ hl => ?waits, fun s n hb => ?idle⟩
  case waits => exact congrArg _ (State.storComplete_waits (.inr hl.ne))
  case idle => exact ⟨congrArg _ (State.storLand_idle n hb), congrArg _ (State.storComplete_waits (.inl hb))⟩
  case done =>
    refine ⟨s.storLand m, s.readDone, rfl, congrArg _ (State.storLand_storComplete hb hm), rfl, ?frags,
      fun a => State.readDone_bufByte_outside, fun hs => ?fresh, fun hs => ?stale, rfl⟩
    case frags =>
      rintro pre f post n hfrags hf rfl i hi
      rw [State.readDone_bufByte_frag hsum hdisj hfrags hf hi]
      refine ⟨fun hs hl => ?_, fun hs hl => ?_, fun hs => ?_⟩
      · rw [hs, if_neg Bool.false_ne_true, if_pos hl]
      · rw [hs, if_neg Bool.false_ne_true, if_neg (by omega)]
      · rw [hs, if_pos rfl]
    case fresh => simp [State.readDone, hs]
    case stale =>
      simp only [State.readDone, hs, if_true, Request.words]
      omega

end Sys2Proof.Machine
end

section
/-! PROOFS. What a bus access answers: which are refused, and what an accepted read of a buffer or of ROWTAB returns, byte by byte
(spec/20_memory.md R101 to R108, R118; spec/70_reset_and_hazards.md R562). -/

namespace Sys2Proof.Machine

/-! ## The address map (R101) -/

/-- The addresses of a region. -/
def Region.Holds (p : Params) : Region → Nat → Prop
  | .csr, a => a < 0x100
  | .hdrbuf, a => InHdrbuf a
  | .rowtab, a => InRowtab p a
  | .aud k, a => InAud p k a
  | .ring, a => InRing p a

/-- The regions lie apart, so that the map's tests may come in any order. -/
theorem regionOf_eq_some_iff (p : Params) (a : Nat) (region : Region) : regionOf p a = some region ↔ region.Holds p a := by
  have hp := params_facts p
  have hhdr : hdrBase = 0x1000 := rfl
  have hrowtab : rowtabBase = 0x2000 := rfl
  have haud0 : audBase 0 = 0x100000 := rfl
  have haud1 : audBase 1 = 0x200000 := rfl
  have hring : ringBase = 0x1000000 := rfl
  unfold regionOf
  constructor
  · intro h
    split_ifs at h <;> obtain rfl := Option.some.inj h <;> assumption
  · intro h
    cases region
    case csr => exact if_pos h
    all_goals obtain ⟨hlo, hhi⟩ := h
    case hdrbuf => rw [if_neg, if_pos] <;> omega
    case rowtab => rw [if_neg, if_neg, if_pos] <;> omega
    case aud k =>
      obtain rfl | rfl : k = 0 ∨ k = 1 := by omega
      · rw [Fin.val_zero] at hlo hhi
        rw [if_neg, if_neg, if_neg, if_pos] <;> omega
      · rw [Fin.val_one] at hlo hhi
        rw [if_neg, if_neg, if_neg, if_neg, if_pos] <;> omega
    case ring => rw [if_neg, if_neg, if_neg, if_neg, if_neg, if_pos] <;> omega

theorem mapped_iff (p : Params) (a : Nat) : Mapped p a ↔ ∃ region : Region, region.Holds p a := by
  constructor
  · rintro (h | h | h | ⟨k, h⟩ | h)
    exacts [⟨.csr, h⟩, ⟨.hdrbuf, h⟩, ⟨.rowtab, h⟩, ⟨.aud k, h⟩, ⟨.ring, h⟩]
  · rintro ⟨region, h⟩
    cases region with
    | csr => exact .inl h
    | hdrbuf => exact .inr (.inl h)
    | rowtab => exact .inr (.inr (.inl h))
    | aud k => exact .inr (.inr (.inr (.inl ⟨k, h⟩)))
    | ring => exact .inr (.inr (.inr (.inr h)))

/-! ## Accepted and refused accesses (R102, R105 to R107) -/

theorem State.readAccepted_eq_some_iff (s : State) (r : Reader) (addr : Word) (size : Nat) (region : Region) :
    s.readAccepted r addr size = some region ↔
      region.Holds s.cfg addr.toNat ∧ widthOk region size = true ∧ addr.toNat % size = 0 ∧ s.mayRead r region = true := by
  rw [← regionOf_eq_some_iff, State.readAccepted]
  cases hregion : regionOf s.cfg addr.toNat with
  | none => simp
  | some found =>
    simp only [Option.some.injEq, Option.ite_none_right_eq_some, Bool.and_eq_true, beq_iff_eq]
    constructor
    · rintro ⟨⟨⟨hw, ha⟩, hm⟩, rfl⟩
      exact ⟨rfl, hw, ha, hm⟩
    · rintro ⟨rfl, hw, ha, hm⟩
      exact ⟨⟨⟨hw, ha⟩, hm⟩, rfl⟩

theorem State.mayRead_of_ne_aud {r : Reader} (s : State) (region : Region) (h : r ≠ .aud) : s.mayRead r region = true := by
  cases r with
  | host | disp0 | disp1 => rfl
  | aud => exact absurd rfl h

theorem widthOk_iff (region : Region) (size : Nat) :
    widthOk region size = true ↔ (size = 1 ∨ size = 2 ∨ size = 4) ∧ (region = .csr → size = 4) := by
  cases region with
  | csr => simp only [widthOk, beq_iff_eq, forall_const]; omega
  | hdrbuf | rowtab | aud | ring => simp [widthOk, or_assoc]

/-- R106: a HOST write outside the 4-byte aligned ones of CSR is refused. -/
theorem writeAccepted_eq_false {addr : Word} {size : Nat} (h : addr.toNat % 4 ≠ 0 ∨ size ≠ 4 ∨ 0x100 ≤ addr.toNat) :
    writeAccepted addr size = false := by
  rw [← Bool.not_eq_true]
  simp only [writeAccepted, Bool.and_eq_true, beq_iff_eq, decide_eq_true_eq]
  omega

/-- R105, R107: a misaligned read, one of a width its region does not take, and one of an unmapped address are refused. -/
theorem State.readAccepted_eq_none {s : State} {r : Reader} {addr : Word} {size : Nat}
    (h : addr.toNat % size ≠ 0 ∨ ¬(size = 1 ∨ size = 2 ∨ size = 4) ∨ (addr.toNat < 0x100 ∧ size ≠ 4)
      ∨ ¬Mapped s.cfg addr.toNat) : s.readAccepted r addr size = none := by
  refine Option.eq_none_iff_forall_ne_some.mpr fun region hsome => ?_
  obtain ⟨hregion, hwidth, haligned, -⟩ := (s.readAccepted_eq_some_iff r addr size region).mp hsome
  obtain ⟨hsize, hcsr⟩ := (widthOk_iff region size).mp hwidth
  rcases h with h | h | ⟨hlow, h⟩ | h
  · exact h haligned
  · exact h hsize
  · refine h (hcsr ?_)
    have hmap := (regionOf_eq_some_iff s.cfg addr.toNat .csr).mpr hlow
    exact Option.some.inj (((regionOf_eq_some_iff ..).mpr hregion).symm.trans hmap)
  · exact h ((mapped_iff ..).mpr ⟨region, hregion⟩)

theorem State.busRead_refused {s : State} {r : Reader} {addr : Word} {size : Nat} (h : s.readAccepted r addr size = none) :
    s.busRead r addr size = { s with env.emitted := .readData r 0 true :: s.env.emitted } := by
  rw [State.busRead, h]
  rfl

theorem State.busRead_accepted {s : State} {r : Reader} {addr : Word} {size : Nat} {region : Region}
    (h : s.readAccepted r addr size = some region) :
    s.busRead r addr size =
      { s with env := { s.env with
                        draws := s.env.draws + s.drawn r region addr.toNat size
                        emitted := .readData r (s.readValue r region addr.toNat size) false :: s.env.emitted } } := by
  rw [State.busRead, h]
  rfl

/-- Settles O46: each ground of refusal refuses in every region, and a read, refused or not, changes the environment only. -/
theorem readsAndRefusalsChangeNothing : Obligations.ReadsAndRefusalsChangeNothing := by
  refine fun s r addr size v => ⟨fun h => ?read, fun h => ?write, s.busRead r addr size, ?_⟩
  case read => exact congrArg _ (State.busRead_refused (State.readAccepted_eq_none h))
  case write =>
    rw [State.runTurn, State.hostWrite, writeAccepted_eq_false h]
    rfl
  cases h : s.readAccepted r addr size with
  | none =>
    rw [State.busRead_refused h]
    exact ⟨0, true, congrArg _ (State.busRead_refused h), ⟨rfl, rfl⟩, fun _ => rfl, rfl⟩
  | some region =>
    rw [State.busRead_accepted h]
    exact ⟨_, false, congrArg _ (State.busRead_accepted h), ⟨rfl, rfl⟩, fun _ => rfl, rfl⟩

/-! ## Bytes of words (R104) -/

theorem valueOfBytes_lt (bs : List Byte) : valueOfBytes bs < 256 ^ bs.length := by
  induction bs with
  | nil => simp [valueOfBytes]
  | cons b bs ih =>
    have hb := b.isLt
    rw [valueOfBytes, List.length_cons, Nat.pow_succ]
    omega

theorem valueOfBytes_digit (bs : List Byte) (i : Nat) : valueOfBytes bs / 256 ^ i % 256 = (bs.getD i 0).toNat := by
  induction bs generalizing i with
  | nil => simp [valueOfBytes]
  | cons b bs ih =>
    have hb := b.isLt
    rw [valueOfBytes]
    cases i with
    | zero => simp; omega
    | succ i =>
      rw [Nat.pow_succ', ← Nat.div_div_eq_div_mul, show (b.toNat + 256 * valueOfBytes bs) / 256 = valueOfBytes bs by omega, ih,
        List.getD_cons_succ]

theorem toNat_extractByte (w : Word) (i : Nat) : (w.extractLsb' (8 * i) 8).toNat = w.toNat / 256 ^ i % 256 := by
  rw [BitVec.extractLsb'_toNat, Nat.shiftRight_eq_div_pow, Nat.pow_mul]

theorem byteOfWord_eq_extract (w : Word) (i : Nat) : byteOfWord w i = w.extractLsb' (8 * i) 8 :=
  BitVec.eq_of_toNat_eq (by rw [toNat_extractByte, byteOfWord, BitVec.toNat_ofNat])

/-- The bytes of the word that `n ≤ 4` bytes make are those bytes, lowest address least significant, and zeros above them. -/
theorem extractByte_valueOfBytes {n : Nat} (f : Nat → Byte) (hn : n ≤ 4) (i : Nat) :
    (BitVec.ofNat 32 (valueOfBytes ((List.range n).map f))).extractLsb' (8 * i) 8 = if i < n then f i else 0 := by
  have hlt := valueOfBytes_lt ((List.range n).map f)
  rw [List.length_map, List.length_range] at hlt
  have hpow : 256 ^ n ≤ 2 ^ 32 := (Nat.pow_le_pow_right (by decide) hn : 256 ^ n ≤ 256 ^ 4).trans (by decide)
  apply BitVec.eq_of_toNat_eq
  rw [toNat_extractByte, BitVec.toNat_ofNat, Nat.mod_eq_of_lt (hlt.trans_le hpow), valueOfBytes_digit]
  split <;> simp [*]

/-! ## Reads of a buffer (R101, R102, R105) -/

/-- An allowed read of a buffer is accepted, in a region of byte storage. -/
theorem BufferReadAllowed.accepted {s : State} {r : Reader} {addr : Word} {size : Nat}
    (h : BufferReadAllowed s r addr size) : ∃ region : Region, s.readAccepted r addr size = some region ∧ region.isBuffer = true := by
  obtain ⟨hsize, haligned, hwho⟩ := h
  have accept : ∀ region : Region, region.Holds s.cfg addr.toNat → region.isBuffer = true → s.mayRead r region = true →
      ∃ region : Region, s.readAccepted r addr size = some region ∧ region.isBuffer = true := by
    intro region hregion hbuf hmay
    refine ⟨region, (s.readAccepted_eq_some_iff ..).mpr ⟨hregion, (widthOk_iff ..).mpr ⟨hsize, ?_⟩, haligned, hmay⟩, hbuf⟩
    rintro rfl
    cases hbuf
  rcases hwho with ⟨hr, hregion⟩ | ⟨rfl, k, hgiven, hregion⟩
  · rcases hregion with hregion | ⟨k, hregion⟩ | hregion
    · exact accept .hdrbuf hregion rfl (s.mayRead_of_ne_aud _ hr)
    · exact accept (.aud k) hregion rfl (s.mayRead_of_ne_aud _ hr)
    · exact accept .ring hregion rfl (s.mayRead_of_ne_aud _ hr)
  · exact accept (.aud k) hregion rfl hgiven

theorem State.readValue_buffer {region : Region} (s : State) (r : Reader) (a size : Nat) (h : region.isBuffer = true) :
    s.readValue r region a size =
      BitVec.ofNat 32 (valueOfBytes ((List.range size).map fun i => s.busByte r (a + i) (s.env.draws + i))) := by
  cases region with
  | hdrbuf | aud | ring => rfl
  | csr | rowtab => cases h

theorem State.drawn_of_unspecified {s : State} {r : Reader} {region : Region} {a size : Nat} (hbuf : region.isBuffer = true)
    (h : ∃ i < size, s.unspecified r (a + i) = true) : s.drawn r region a size = size := by
  rw [State.drawn, hbuf, Bool.true_and, if_pos]
  simpa using h

theorem State.drawn_of_specified {s : State} {r : Reader} {region : Region} {a size : Nat}
    (h : ∀ i < size, s.unspecified r (a + i) = false) : s.drawn r region a size = 0 := by
  rw [State.drawn, if_neg]
  simpa using fun _ => h

/-- What an allowed read of a buffer does: it answers the bytes the bus sees, lowest address least significant, zero-extended, and
draws as many free bytes as `State.drawn` says. -/
theorem BufferReadAllowed.answer {s : State} {r : Reader} {addr : Word} {size : Nat} (h : BufferReadAllowed s r addr size) :
    ∃ (v : Word) (region : Region), region.isBuffer = true
      ∧ s.runTurn (.busRead r addr size) =
        .next { s with env := { s.env with draws := s.env.draws + s.drawn r region addr.toNat size
                                           emitted := .readData r v false :: s.env.emitted } }
      ∧ ∀ i, v.extractLsb' (8 * i) 8 = if i < size then s.busByte r (addr.toNat + i) (s.env.draws + i) else 0 := by
  obtain ⟨region, hacc, hbuf⟩ := h.accepted
  obtain ⟨hsize, -, -⟩ := h
  refine ⟨_, region, hbuf, congrArg _ (State.busRead_accepted hacc), fun i => ?_⟩
  rw [s.readValue_buffer r _ _ hbuf, extractByte_valueOfBytes _ (by omega)]

/-! ## Unspecified bytes (R118, R562) -/

theorem State.inFlight_iff (s : State) (a : Nat) : s.inFlight a = true ↔ Lands s a := by
  simp [State.inFlight, Lands, and_assoc]

theorem isConsumer_iff (r : Reader) : isConsumer r = true ↔ r = .disp0 ∨ r = .disp1 := by
  cases r <;> decide

theorem State.ringWordValid_iff (s : State) (w : Nat) :
    s.ringWordValid w = true ↔ s.win.validFrom ≠ s.win.validTo
      ∧ distN s.cfg.ringWords (s.rowStart s.win.validFrom.toNat) w
          < distN s.cfg.ringWords (s.rowStart s.win.validFrom.toNat) (s.rowStart s.win.validTo.toNat) := by
  simp [State.ringWordValid, inWindowN]

theorem State.unspecified_iff (s : State) (r : Reader) (a : Nat) :
    s.unspecified r a = true ↔
      Lands s a ∨ (isConsumer r = true ∧ ringBase ≤ a ∧ ¬s.ringWordValid ((a - ringBase) / 4) = true) := by
  simp [State.unspecified, State.inFlight_iff, and_assoc]

/-- Settles O45: the bytes of the answer are those the bus sees, and which of them are free is as R118 and R562 say. -/
theorem unspecifiedBytesReadAsAnyValue : Obligations.UnspecifiedBytesReadAsAnyValue := by
  refine ⟨fun s r addr size hallowed hfree => ?_, fun s r a => ?_⟩
  · obtain ⟨v, region, hbuf, hrun, hbytes⟩ := hallowed.answer
    rw [State.drawn_of_unspecified hbuf hfree] at hrun
    refine ⟨v, hrun, fun i _ => ?_⟩
    rw [hbytes]
    rcases Nat.lt_or_ge i size with hi | hi
    · rw [if_pos hi, if_neg (by omega)]
      rfl
    · rw [if_neg (by omega), if_pos hi]
  · rw [s.unspecified_iff, isConsumer_iff, s.ringWordValid_iff]
    rfl

/-- With no byte unspecified an allowed read of a buffer answers the bytes stored, and draws nothing. -/
theorem BufferReadAllowed.answer_specified {s : State} {r : Reader} {addr : Word} {size : Nat}
    (h : BufferReadAllowed s r addr size) (hspec : ∀ i < size, s.unspecified r (addr.toNat + i) = false) :
    ∃ v : Word, s.runTurn (.busRead r addr size) = .next { s with env.emitted := .readData r v false :: s.env.emitted }
      ∧ ∀ i, v.extractLsb' (8 * i) 8 = if i < size then s.bufByte (addr.toNat + i) else 0 := by
  obtain ⟨v, region, -, hrun, hbytes⟩ := h.answer
  rw [State.drawn_of_specified hspec] at hrun
  refine ⟨v, hrun, fun i => ?_⟩
  rw [hbytes, State.busByte]
  split_ifs with hi hun
  · exact absurd hun (by simp [hspec i hi])
  all_goals rfl

/-! ## Reads of ROWTAB (R101) -/

theorem State.rowtabByte_of_entry {s : State} {i y : Nat} {e : Word} (he : s.rt[i]? = some e) (hy : y < 4) :
    s.rowtabByte (4 * i + y) = e.extractLsb' (8 * y) 8 := by
  have hentry : s.rowOffset i = e := by simp [State.rowOffset, List.getD, he]
  rw [State.rowtabByte, show (4 * i + y) / 4 = i by omega, show (4 * i + y) % 4 = y by omega, hentry, byteOfWord_eq_extract]

/-- A read of bytes `j` to `j + size - 1` of entry `i`, as HOST and the display consumers may, answers those bytes of `RT[i]`. -/
theorem State.busRead_rowtab {s : State} {r : Reader} {i j size : Nat} {e : Word} (hr : r ≠ .aud) (hi : i < s.cfg.rowSlots)
    (he : s.rt[i]? = some e) (hsize : size = 1 ∨ size = 2 ∨ size = 4) (hj : j + size ≤ 4) (hjs : j % size = 0) :
    ∃ v, s.runTurn (.busRead r (BitVec.ofNat 32 (0x2000 + 4 * i + j)) size) =
        .next { s with env.emitted := .readData r v false :: s.env.emitted }
      ∧ ∀ x, v.extractLsb' (8 * x) 8 = if x < size then e.extractLsb' (8 * (j + x)) 8 else 0 := by
  have hp := params_facts s.cfg
  have haddr : (BitVec.ofNat 32 (0x2000 + 4 * i + j)).toNat = 0x2000 + 4 * i + j := by
    rw [BitVec.toNat_ofNat]
    omega
  have haligned : (0x2000 + 4 * i + j) % size = 0 := by rcases hsize with rfl | rfl | rfl <;> omega
  have hacc : s.readAccepted r (BitVec.ofNat 32 (0x2000 + 4 * i + j)) size = some .rowtab := by
    rw [State.readAccepted_eq_some_iff, haddr, widthOk_iff]
    exact ⟨⟨by omega, by omega⟩, ⟨hsize, nofun⟩, haligned, s.mayRead_of_ne_aud _ hr⟩
  refine ⟨_, congrArg _ (State.busRead_accepted hacc), fun x => ?_⟩
  rw [haddr, State.readValue, extractByte_valueOfBytes _ (by omega)]
  split
  next hx => rw [show 0x2000 + 4 * i + j - rowtabBase + x = 4 * i + (j + x) by unfold rowtabBase; omega,
    State.rowtabByte_of_entry he (by omega)]
  next => rfl

end Sys2Proof.Machine
end

section
/-! PROOFS. Under the invariant of the display-sync contract the words of the rows of the valid window lie where no read in flight
writes, are valid for the consumers, and are left alone by every step (spec/20_memory.md R119, R123; spec/43_display_sync.md R404). -/

namespace Sys2Proof.Machine

/-! ## The assigned slots -/

theorem IndicesOk.released_le_shown {s : State} (h : IndicesOk s) : s.rowsReleased ≤ s.rowsShown := by
  unfold State.rowsShown
  split
  next => exact h.released_lt.le
  next hhidden => exact (h.released_hidden (Bool.eq_false_iff.mpr hhidden)).le

/-- Counted from `display_start`, the released rows come first, then the landed ones that are not released, then the rest of the
assigned ones. -/
theorem IndicesOk.slot_counts {s : State} (h : IndicesOk s) :
    distN s.cfg.rowSlots s.win.validFrom.toNat s.win.validTo.toNat = s.rowsShown + s.rowsLanded - s.rowsReleased
      ∧ s.slotsAssigned = s.rowsShown + s.rowsAhead - s.rowsReleased ∧ s.slotsAssigned < s.cfg.rowSlots := by
  have hp := params_facts s.cfg
  have hrel := h.released_le_shown
  have hlanded := h.landed_le
  have hbudget := h.budget
  have hfrom : s.win.validFrom.toNat = addN s.cfg.rowSlots s.win.displayStart.toNat s.rowsReleased :=
    (addN_distN h.start_lt h.from_lt).symm
  unfold State.slotsAssigned
  rw [h.validTo, h.planned, hfrom, distN_addN (by omega) (by omega), distN_addN (by omega) (by omega)]
  omega

/-- R413: the valid window is part of the assigned one. -/
theorem IndicesOk.valid_le_assigned {s : State} (h : IndicesOk s) :
    distN s.cfg.rowSlots s.win.validFrom.toNat s.win.validTo.toNat ≤ s.slotsAssigned := by
  obtain ⟨hvalid, hassigned, -⟩ := h.slot_counts
  have hlanded := h.landed_le
  omega

theorem IndicesOk.validTo_lt {s : State} (h : IndicesOk s) : s.win.validTo.toNat < s.cfg.rowSlots := by
  have hp := params_facts s.cfg
  exact h.validTo ▸ addN_lt (by omega) _ _

theorem IndicesOk.plannedTo_lt {s : State} (h : IndicesOk s) : s.win.plannedTo.toNat < s.cfg.rowSlots := by
  have hp := params_facts s.cfg
  exact h.planned ▸ addN_lt (by omega) _ _

/-! ## Where the assigned rows begin -/

theorem IndicesOk.startOf_zero {s : State} (h : IndicesOk s) : s.startOf 0 = s.keepOff := by
  rw [State.startOf, addN_zero h.from_lt, State.keepOff]

/-- The row after the last valid one begins where the window ends. -/
theorem IndicesOk.startOf_valid {s : State} (h : IndicesOk s) :
    s.startOf (distN s.cfg.rowSlots s.win.validFrom.toNat s.win.validTo.toNat) = s.rowStart s.win.validTo.toNat := by
  rw [State.startOf, addN_distN h.from_lt h.validTo_lt]

theorem IndicesOk.startOf_assigned {s : State} (h : IndicesOk s) : s.startOf s.slotsAssigned = s.cur.writeOff.toNat := by
  rw [State.startOf, State.slotsAssigned, addN_distN h.from_lt h.plannedTo_lt, State.rowStart, if_neg (by simp)]

/-- An assigned slot's row begins at its entry of the row table. -/
theorem IndicesOk.startOf_entry {s : State} {i : Nat} (h : IndicesOk s) (hi : i < s.slotsAssigned) :
    s.startOf i = (s.rowOffset (addN s.cfg.rowSlots s.win.validFrom.toNat i)).toNat / 4 := by
  rw [State.startOf, State.rowStart, if_pos]
  intro heq
  obtain ⟨-, -, hlt⟩ := h.slot_counts
  have hdist := distN_base h.from_lt (k := i) (by omega)
  rw [heq] at hdist
  exact absurd hdist hi.ne'

theorem SyncInv.startOf_lt {s : State} {i : Nat} (h : SyncInv s) (hi : i ≤ s.slotsAssigned) :
    s.startOf i < s.cfg.ringWords := by
  rcases Nat.lt_or_eq_of_le hi with hi | rfl
  · exact h.layout.start_lt i hi
  · exact h.indices.startOf_assigned ▸ h.cursors.off_lt

/-- How far the row of the `i`-th assigned slot begins past the do-not-overwrite boundary. -/
def State.depthOf (s : State) (i : Nat) : Nat := distN s.cfg.ringWords s.keepOff (s.startOf i)

theorem SyncInv.startOf_eq {s : State} {i : Nat} (h : SyncInv s) (hi : i ≤ s.slotsAssigned) :
    s.startOf i = addN s.cfg.ringWords s.keepOff (s.depthOf i) :=
  (addN_distN (h.indices.startOf_zero ▸ h.startOf_lt (Nat.zero_le _)) (h.startOf_lt hi)).symm

theorem SyncInv.depthOf_lt {s : State} (h : SyncInv s) (i : Nat) : s.depthOf i < s.cfg.ringWords :=
  distN_lt (Nat.zero_lt_of_lt h.cursors.off_lt) _ _

theorem SyncInv.depthOf_mono {s : State} {i j : Nat} (h : SyncInv s) (hij : i ≤ j) (hj : j ≤ s.slotsAssigned) :
    s.depthOf i ≤ s.depthOf j := by
  induction j, hij using Nat.le_induction with
  | base => exact le_rfl
  | succ j _ ih => exact (ih (by omega)).trans (h.layout.order j hj).le

/-- Word `k` of an assigned row is `k` past the row's start, and before the start of the row after it. -/
theorem SyncInv.word_of_row {s : State} {i k : Nat} (h : SyncInv s) (hi : i < s.slotsAssigned)
    (hk : k < distN s.cfg.ringWords (s.startOf i) (s.startOf (i + 1))) :
    distN s.cfg.ringWords (s.startOf i) (addN s.cfg.ringWords (s.startOf i) k) = k
      ∧ distN s.cfg.ringWords s.keepOff (addN s.cfg.ringWords (s.startOf i) k) < s.depthOf (i + 1) := by
  have hlt := h.depthOf_lt (i + 1)
  have hord : s.depthOf i < s.depthOf (i + 1) := h.layout.order i hi
  have hkeep : s.keepOff < s.cfg.ringWords := h.indices.startOf_zero ▸ h.startOf_lt (Nat.zero_le _)
  rw [h.startOf_eq hi.le, h.startOf_eq hi, distN_addN hord.le (by omega)] at hk
  refine ⟨distN_base (h.startOf_lt hi.le) (by omega), ?_⟩
  rw [h.startOf_eq hi.le, addN_addN, distN_base hkeep (by omega)]
  omega

/-- The words of the rows of the valid window are valid for the consumers. -/
theorem SyncInv.ringWordValid_of_row {s : State} {i k : Nat} (h : SyncInv s)
    (hi : i < distN s.cfg.rowSlots s.win.validFrom.toNat s.win.validTo.toNat)
    (hk : k < distN s.cfg.ringWords (s.startOf i) (s.startOf (i + 1))) :
    s.ringWordValid (addN s.cfg.ringWords (s.startOf i) k) = true := by
  have hassigned := h.indices.valid_le_assigned
  refine (s.ringWordValid_iff _).mpr ⟨fun heq => ?_, ?_⟩
  · have hzero := distN_base h.indices.from_lt (k := 0) (Nat.zero_lt_of_lt h.indices.from_lt)
    rw [addN_zero h.indices.from_lt] at hzero
    rw [← heq, hzero] at hi
    exact Nat.not_lt_zero i hi
  · rw [← h.indices.startOf_valid]
    exact (h.word_of_row (by omega) hk).2.trans_le (h.depthOf_mono hi hassigned)

/-! ## The bytes of those words -/

/-- The ring word of an address of R123, for a row that begins at a word. -/
theorem rowWordAddr_eq {p : Params} {off : Word} (k : Nat) (h : off.toNat % 4 = 0) :
    rowWordAddr p off k = ringBase + 4 * addN p.ringWords (off.toNat / 4) k := by
  rw [rowWordAddr, addN, ← Nat.mul_mod_mul_left, show 4 * (off.toNat / 4 + k) = off.toNat + 4 * k by omega]

/-- R119: a byte of a row of the valid window lies in RING, no read in flight writes it, and it is specified for every reader. -/
theorem SyncInv.row_byte {s : State} {i k b : Nat} (h : SyncInv s)
    (hi : i < distN s.cfg.rowSlots s.win.validFrom.toNat s.win.validTo.toNat)
    (hk : k < distN s.cfg.ringWords (s.startOf i) (s.startOf (i + 1))) (hb : b < 4) {a : Nat}
    (ha : a = rowWordAddr s.cfg (s.rowOffset (addN s.cfg.rowSlots s.win.validFrom.toNat i)) k + b) :
    (ringBase ≤ a ∧ a < ringBase + 4 * s.cfg.ringWords) ∧ ¬Lands s a ∧ ∀ r, s.unspecified r a = false := by
  have hassigned := hi.trans_le h.indices.valid_le_assigned
  have hring := addN_lt (Nat.zero_lt_of_lt h.cursors.off_lt) (s.startOf i) k
  rw [rowWordAddr_eq k (h.layout.aligned i hassigned), ← h.indices.startOf_entry hassigned] at ha
  have hword : (a - ringBase) / 4 = addN s.cfg.ringWords (s.startOf i) k := by omega
  have hin : ringBase ≤ a ∧ a < ringBase + 4 * s.cfg.ringWords := by omega
  have hapart : ¬Lands s a := by
    intro hlands
    have hfar := h.landing.apart a hlands hin i hi
    rw [hword, (h.word_of_row hassigned hk).1] at hfar
    omega
  refine ⟨hin, hapart, fun r => ?_⟩
  rw [← Bool.not_eq_true, s.unspecified_iff, hword]
  rintro (hlands | ⟨-, -, hinvalid⟩)
  · exact hapart hlands
  · exact hinvalid (h.ringWordValid_of_row hi hk)

/-! ## What post-processing writes (spec/44_audio.md R451) -/

theorem length_putSector {ws x : List Word} {i n : Nat} (hw : ws.length = 128 * n) (hx : x.length = 128) (hi : i < n) :
    (putSector ws i x).length = 128 * n := by
  simp only [putSector, List.length_append, List.length_take, List.length_drop]
  omega

theorem length_sectorOf {ws : List Word} {i n : Nat} (hw : ws.length = 128 * n) (hi : i < n) :
    (sectorOf ws i).length = 128 := by
  simp only [sectorOf, List.length_take, List.length_drop]
  omega

theorem length_processPair {ws : List Word} {i n : Nat} (rev : Bool) (g : BitVec 8) (hw : ws.length = 128 * n) (hi : i < n) :
    (processPair rev g n ws i).length = 128 * n := by
  have hx := length_sectorOf hw hi
  have hy := length_sectorOf hw (show n - 1 - i < n by omega)
  have hx' : ((if rev then (sectorOf ws (n - 1 - i)).reverse else sectorOf ws i).map (gainWord g)).length = 128 := by
    cases rev <;> simp [hx, hy]
  have hy' : ((if rev then (sectorOf ws i).reverse else sectorOf ws (n - 1 - i)).map (gainWord g)).length = 128 := by
    cases rev <;> simp [hx, hy]
  simp only [processPair]
  split
  · exact length_putSector hw hx' hi
  · exact length_putSector (length_putSector hw hx' hi) hy' (by omega)

/-- The pass keeps the length of a buffer of whole sectors. -/
theorem length_processWords {ws : List Word} {n : Nat} (rev : Bool) (g : BitVec 8) (hw : ws.length = 128 * n) :
    (processWords rev g n ws).length = 128 * n := by
  have pairs : ∀ (is : List Nat) (ws : List Word), (∀ i ∈ is, i < n) → ws.length = 128 * n →
      (is.foldl (processPair rev g n) ws).length = 128 * n := by
    intro is
    induction is with
    | nil => exact fun _ _ hw => hw
    | cons i is ih =>
      intro ws his hw
      exact ih _ (fun j hj => his j (List.mem_cons_of_mem i hj))
        (length_processPair rev g hw (his i List.mem_cons_self))
  unfold processWords
  split
  · exact hw
  · refine pairs _ ws (fun i hi => ?_) hw
    have := List.mem_range.mp hi
    omega

theorem length_flatMap_wordBytes (ws : List Word) : (ws.flatMap wordBytes).length = 4 * ws.length := by
  induction ws with
  | nil => rfl
  | cons w ws ih =>
    rw [List.flatMap_cons, List.length_append, ih, List.length_cons]
    simp only [wordBytes, List.length_cons, List.length_nil]
    omega

/-- Post-processing a buffer leaves every byte past the words of its slot. -/
theorem State.postProcess_bufByte_outside {s : State} {k : Fin 2} {a : Nat}
    (h : audBase k + 4 * (s.slot k).words.toNat ≤ a) : (s.postProcess k).bufByte a = s.bufByte a := by
  refine State.bufByte_congr_read ?_
  unfold State.postProcess
  split
  · rfl
  · rw [Memory.read?_write, if_neg]
    rw [length_flatMap_wordBytes, length_processWords _ _ (by rw [State.bufWords, List.length_map, List.length_range])]
    omega

/-! ## What a step writes to the buffers -/

theorem State.adopt_mem (s : State) (found : List Stream) : (s.adopt found).mem = s.mem := by
  simp only [State.adopt]
  split <;> rfl

theorem State.formatError_mem (s : State) (v : Nat) : (s.formatError v).mem = s.mem := by
  simp only [State.formatError, State.goto_mem]
  split <;> rfl

/-! ### DEC's steps -/

/-- A step that always goes on, by work that leaves the buffers. -/
theorem mem_of_goes {s t u : State} (h : some u = some t) (hu : u.mem = s.mem) : t.mem = s.mem :=
  Option.some.inj h ▸ hu

/-- A step that waits for a condition, and goes on by work that leaves the buffers. -/
theorem mem_of_waits {s t u : State} {c : Prop} [Decidable c] (h : (if c then none else some u) = some t)
    (hu : u.mem = s.mem) : t.mem = s.mem := by
  split at h
  · cases h
  · exact mem_of_goes h hu

theorem decInit_mem {s t : State} (h : decInit s = some t) : t.mem = s.mem := by
  unfold decInit at h
  split at h
  · cases h
  · split at h
    · exact mem_of_goes h (s.adopt_mem _)
    · exact mem_of_goes h rfl

theorem decNewFrame_mem {s t : State} (h : decNewFrame s = some t) : t.mem = s.mem := by
  unfold decNewFrame at h
  split at h
  · cases h
  · split at h <;> exact mem_of_goes h rfl

theorem decReadingHeader_mem {s t : State} (h : decReadingHeader s = some t) : t.mem = s.mem := by
  unfold decReadingHeader at h
  split at h
  · cases h
  · split at h
    · exact mem_of_goes h rfl
    · exact mem_of_goes h (s.formatError_mem _)

theorem decPreppingVideo_mem {s t : State} (h : decPreppingVideo s = some t) : t.mem = s.mem := by
  unfold decPreppingVideo at h
  split at h
  · cases h
  · obtain ⟨u, hu, rfl⟩ := Option.map_eq_some_iff.mp h
    have hm : u.mem = s.mem := mem_of_waits hu rfl
    exact hm

theorem decAwaitAudioBuffer_mem {s t : State} (h : decAwaitAudioBuffer s = some t) : t.mem = s.mem := by
  obtain ⟨k, -, rfl⟩ := Option.map_eq_some_iff.mp h
  rfl

theorem decNeedAudio_mem {s t : State} (h : decNeedAudio s = some t) : t.mem = s.mem := by
  unfold decNeedAudio at h
  split at h
  · cases h
  · exact mem_of_waits h rfl

theorem decPostProcessAudio_mem {s t : State} (h : decPostProcessAudio s = some t) :
    ∃ k, t.mem = (s.postProcess k).mem := by
  unfold decPostProcessAudio at h
  split at h
  · cases h
  · rename_i k _
    obtain ⟨a, b, o, hh⟩ := State.tryHandoff_eq
      ((s.postProcess k).setSlot k { (s.postProcess k).slot k with state := .queued }) k
    refine ⟨k, mem_of_goes h ?_⟩
    simp only [hh]
    rfl

theorem decFrameReady_mem {s t : State} (h : decFrameReady s = some t) : t.mem = s.mem := by
  simp only [decFrameReady] at h
  split at h <;> exact mem_of_goes h rfl

theorem decError_mem {s t : State} (h : decError s = some t) : t.mem = s.mem := by
  unfold decError at h
  split at h
  · split at h
    · exact mem_of_goes h rfl
    · cases h
  · exact mem_of_goes h rfl

/-- R292: of DEC's steps only the one of POST_PROCESS_AUDIO writes the buffers. -/
theorem decStep_mem {s t : State} (h : decStep s = some t) : t.mem = s.mem ∨ ∃ k, t.mem = (s.postProcess k).mem := by
  replace h := (decStep_some h).2
  unfold decStateStep at h
  cases hs : s.fsm.state <;> rw [hs] at h
  case postProcessAudio => exact .inr (decPostProcessAudio_mem h)
  all_goals left
  case init => exact decInit_mem h
  case newFrame => exact decNewFrame_mem h
  case readingHeader => exact decReadingHeader_mem h
  case preppingVideo => exact decPreppingVideo_mem h
  case awaitAudioBuffer => exact decAwaitAudioBuffer_mem h
  case needAudio => exact decNeedAudio_mem h
  case frameReady => exact decFrameReady_mem h
  case error => exact decError_mem h
  case needHeader | readingVideo | readingAudio => exact mem_of_waits h rfl
  case needVideo | audioReady | hitEnd => exact mem_of_goes h rfl

/-! ### The other agents' steps -/

theorem State.writeReg_mem (s : State) (off : Nat) (v : Word) : (s.writeReg off v).mem = s.mem := by
  unfold State.writeReg
  split
  · split <;> rfl
  all_goals rfl

/-- Where the outstanding read does not land, its fragments do not reach. -/
theorem outside_of_not_lands {s : State} {a : Nat} (hb : s.dma.busy = true) (h : ¬Lands s a) :
    ∀ f ∈ s.dma.req.frags, f.dest ≠ discard → a < f.dest.toNat ∨ f.dest.toNat + 4 * f.words ≤ a := by
  intro f hf hd
  by_contra hin
  exact h ⟨hb, f, hf, hd, by omega, by omega⟩

theorem State.storLand_bufByte {s : State} {a : Nat} (n : Nat) (h : ¬Lands s a) : (s.storLand n).bufByte a = s.bufByte a := by
  cases hb : s.dma.busy with
  | false => rw [s.storLand_idle n hb]
  | true =>
    rw [s.storLand_busy n hb]
    exact State.bufByte_congr_read (landWords_outside _ _ _ _ _ _ _ (outside_of_not_lands hb h))

theorem State.storComplete_bufByte {s : State} {a : Nat} (h : ¬Lands s a) : s.storComplete.bufByte a = s.bufByte a := by
  by_cases hdone : s.dma.busy = true ∧ s.dma.landed = s.dma.req.words
  · obtain ⟨hb, hl⟩ := hdone
    rw [State.storComplete_done hb hl]
    cases s.dma.stale with
    | false => rfl
    | true => exact State.bufByte_congr_read (landWords_outside _ _ _ _ _ _ _ (outside_of_not_lands hb h))
  · rw [State.storComplete_waits ((not_and_or.mp hdone).imp_left Bool.eq_false_iff.mpr)]

/-- A RING byte that no read in flight writes is left alone by every turn: DEC writes the audio buffers only, each within its slot's
words, and the other agents but STOR write none. -/
theorem State.runTurn_ringByte {s t : State} {turn : Turn} {a : Nat} (h : s.runTurn turn = .next t) (hring : ringBase ≤ a)
    (hlands : ¬Lands s a) (hslots : ∀ k, (s.slot k).words.toNat ≤ s.cfg.audioSlotWords) : t.bufByte a = s.bufByte a := by
  have hp := params_facts s.cfg
  refine State.runTurn_cases (P := fun u => u.bufByte a = s.bufByte a) h
    (hold := fun _ _ => rfl) (dec := fun u _ hu => ?dec)
    (writeReg := fun off v => State.bufByte_congr (s.writeReg_mem off v) a) (writeError := rfl)
    (run := fun p i w _ _ u hu => State.bufByte_congr (exec_keeps i s u hu).mem a)
    (runDisplay := fun i w c _ u hu => State.bufByte_congr (exec_keeps i _ u hu).mem a)
    (illegal := fun _ => rfl) (illegalDisplay := fun _ _ => rfl)
    (busRead := fun r addr size => ?busRead)
    (land := fun n => State.storLand_bufByte n hlands) (complete := State.storComplete_bufByte hlands)
  case busRead =>
    rw [s.busRead_eq]
    rfl
  case dec =>
    rcases decStep_mem hu with hm | ⟨k, hm⟩
    · exact State.bufByte_congr hm a
    · rw [State.bufByte_congr hm]
      refine State.postProcess_bufByte_outside ?_
      have hk := hslots k
      unfold audBase
      unfold ringBase at hring
      omega

/-- Settles O47: what an allowed read answers, the bytes of the rows of the valid window, and ROWTAB. -/
theorem bufferReadsAreLittleEndian : Obligations.BufferReadsAreLittleEndian := by
  refine ⟨fun s r addr size hallowed => ?answered, fun s r addr size hallowed hspec => ?specified,
    fun s r i k b hinv hi hk hb a ha => ?row, fun s r i j size hr hlen hi hsize hj hjs => ?rowtab⟩
  case answered =>
    obtain ⟨v, region, -, hrun, -⟩ := hallowed.answer
    exact ⟨v, _, hrun⟩
  case specified =>
    obtain ⟨v, hrun, hbytes⟩ := hallowed.answer_specified hspec
    exact ⟨v, hrun, fun i _ => hbytes i⟩
  case row =>
    obtain ⟨⟨hlo, hhi⟩, hlands, hspec⟩ := hinv.row_byte hi hk hb ha
    refine ⟨hlo, hhi, hspec r, fun t ht => ?_⟩
    rw [step_eq, s.turnTaken_eq] at ht
    exact State.runTurn_ringByte (s := { s with env := s.turnTaken.env }) ht hlo hlands hinv.landing.slots
  case rowtab =>
    have he := List.getElem?_eq_getElem (hlen ▸ hi)
    obtain ⟨v, hrun, hbytes⟩ := State.busRead_rowtab hr hi he hsize hj hjs
    exact ⟨v, _, hrun, he, fun x _ => hbytes x⟩

end Sys2Proof.Machine
end

section
/-! PROOFS. Decoding and encoding undo each other, and a port's legal words are those its rows of the opcode table match
(spec/30_encoding.md R150 to R158). -/

namespace Sys2Proof

/-! ## An operation and the fields it encodes -/

theorem encode_fields (i : Instr) :
    opcOf (encode i) = i.opc ∧ selOf (encode i) = i.selField ∧ argOf (encode i) = i.argField :=
  fields_of_packed i.opc i.opc_lt i.selField i.argField _ rfl

/-- R153: an operation is the one its own fields name. -/
theorem operationOf_fields (i : Instr) : operationOf i.opc i.selField i.argField = some i := by
  cases i <;> rfl

/-- R154: the must-be-zero bits of an operation's own fields are 0 exactly when it is well-formed. -/
theorem mustBeZeroOk_fields (i : Instr) : mustBeZeroOk i i.selField i.argField = i.wellFormed := by
  cases i <;> simp [mustBeZeroOk, Instr.selField, Instr.argField, Instr.wellFormed]

/-- R154: the fields an operation is read from, when their must-be-zero bits are 0, are the ones it encodes. -/
theorem fields_of_operationOf {opc : Nat} {sel : Byte} {arg : Half} {i : Instr} (hop : operationOf opc sel arg = some i)
    (hz : mustBeZeroOk i sel arg = true) : sel = i.selField ∧ arg = i.argField := by
  unfold operationOf at hop
  split at hop <;> cases hop <;> simp_all [mustBeZeroOk, Instr.selField, Instr.argField, BitVec.toNat_eq]

/-- R151, R154, R158: a word decodes to the well-formed operation of its port that encodes to it, and to no other. -/
theorem decode_eq_instr_iff_encode {p : Port} {w : Word} {i : Instr} :
    decode p w = .instr i ↔ i.wellFormed = true ∧ i.port = p ∧ encode i = w := by
  obtain ⟨hopc, hsel, harg⟩ := encode_fields i
  constructor
  · intro h
    obtain ⟨hop, -, hz⟩ := decode_eq_instr_iff.mp h
    obtain ⟨hs, ha⟩ := fields_of_operationOf hop hz
    refine ⟨?_, port_eq_of_decode h, (word_eq_iff _ w).mpr ?_⟩
    · rwa [← mustBeZeroOk_fields, ← hs, ← ha]
    · exact ⟨hopc.trans (operationOf_opc hop).symm, hsel.trans hs.symm, harg.trans ha.symm⟩
  · rintro ⟨hwf, rfl, rfl⟩
    rw [decode_eq_instr_iff, hopc, hsel, harg]
    exact ⟨operationOf_fields i, portOfOpc_opc i, (mustBeZeroOk_fields i).trans hwf⟩

/-- Settles O1: an operation's word has its opcode, its fields and no must-be-zero bit set. -/
theorem decodeInvertsEncode : Obligations.DecodeInvertsEncode :=
  fun _ hwf => decode_eq_instr_iff_encode.mpr ⟨hwf, rfl, rfl⟩

/-- Settles O2: the three fields of a legal word are those of its operation, and a word is packed from its fields. -/
theorem encodeInvertsDecode : Obligations.EncodeInvertsDecode :=
  fun _ _ _ h => decode_eq_instr_iff_encode.mp h

/-- Settles O3, by running the decoder on each word. -/
theorem specWordsDecode : Obligations.SpecWordsDecode := by
  unfold Obligations.SpecWordsDecode
  decide

/-! ## The fields of a masked word -/

theorem opcOf_and (w v : Word) : opcOf (w &&& v) = opcOf w &&& opcOf v := by
  simp [opcOf, BitVec.extractLsb'_and]

theorem selOf_and (w v : Word) : selOf (w &&& v) = selOf w &&& selOf v := by
  simp [selOf, BitVec.extractLsb'_and]

theorem argOf_and (w v : Word) : argOf (w &&& v) = argOf w &&& argOf v := by
  simp [argOf, BitVec.extractLsb'_and]

/-- Every mask of the opcode table holds the whole opcode. -/
theorem opcOf_and_0xFF (w : Word) : opcOf w &&& 0xFF = opcOf w := by
  rw [Nat.and_two_pow_sub_one_eq_mod _ 8]
  exact Nat.mod_eq_of_lt (opcOf_lt w)

/-- R154: `SEL[7:1]` is 0 when the field is a consumer or slot number. -/
theorem byte_and_0xFE_eq_zero_iff : ∀ b : Byte, b &&& 0xFE = 0 ↔ b.toNat < 2 := by
  decide

/-! ## The opcode table -/

/-- R154: the must-be-zero bits of an operation's `SEL`. -/
def Instr.selMask : Instr → Byte
  | .dAdvance _ _ | .aDone _ => 0xFE
  | .nop | .playPause | .setSpeed _ | .toggleDir | .stepFwd | .stepBack | .nextStream | .prevStream | .volUp | .volDown
  | .dQvalid _ | .dQoffset _ | .dTick => BitVec.allOnes 8

/-- R154: the must-be-zero bits of an operation's `ARG`. -/
def Instr.argMask : Instr → Half
  | .setSpeed _ | .dQvalid _ | .dQoffset _ | .dAdvance _ _ => 0
  | .nop | .playPause | .toggleDir | .stepFwd | .stepBack | .nextStream | .prevStream | .volUp | .volDown | .dTick
  | .aDone _ => BitVec.allOnes 16

theorem mustBeZeroOk_iff_masks (i : Instr) (sel : Byte) (arg : Half) :
    mustBeZeroOk i sel arg = true ↔ sel &&& i.selMask = 0 ∧ arg &&& i.argMask = 0 := by
  have hsel : sel.toNat = 0 ↔ sel = 0 := (BitVec.toNat_inj (y := 0)).trans Iff.rfl
  have harg : arg.toNat = 0 ↔ arg = 0 := (BitVec.toNat_inj (y := 0)).trans Iff.rfl
  have hzero : arg &&& 0 = 0 := BitVec.and_zero
  cases i <;> simp only [mustBeZeroOk, Instr.selMask, Instr.argMask, BitVec.and_allOnes, byte_and_0xFE_eq_zero_iff,
    Bool.and_eq_true, decide_eq_true_eq, hsel, harg, hzero,
    and_true]

/-- The row of an operation in the opcode table: its port, the word with its opcode alone, and the bits it fixes. -/
def Instr.tableRow (i : Instr) : Port × Word × Word :=
  (i.port, BitVec.ofNat 32 i.opc <<< 24 ||| (0 : Byte).setWidth 32 <<< 16 ||| (0 : Half).setWidth 32,
    BitVec.ofNat 32 0xFF <<< 24 ||| i.selMask.setWidth 32 <<< 16 ||| i.argMask.setWidth 32)

/-- A word matches an operation's row when it has its opcode and its must-be-zero bits are 0. -/
theorem matches_tableRow_iff (w : Word) (i : Instr) :
    w &&& i.tableRow.2.2 = i.tableRow.2.1 ↔ opcOf w = i.opc ∧ mustBeZeroOk i (selOf w) (argOf w) = true := by
  obtain ⟨hopc, hsel, harg⟩ := fields_of_packed i.opc i.opc_lt 0 0 i.tableRow.2.1 rfl
  obtain ⟨hopcMask, hselMask, hargMask⟩ := fields_of_packed 0xFF (by decide) i.selMask i.argMask i.tableRow.2.2 rfl
  rw [word_eq_iff, opcOf_and, selOf_and, argOf_and, hopcMask, hselMask, hargMask, opcOf_and_0xFF, hopc, hsel, harg,
    mustBeZeroOk_iff_masks]

/-- One operation for each row of the opcode table. -/
def tableInstrs : List Instr :=
  [.nop, .playPause, .setSpeed 0, .toggleDir, .stepFwd, .stepBack, .nextStream, .prevStream, .volUp, .volDown, .dQvalid 0, .dQoffset 0,
   .dAdvance 0 0, .dTick, .aDone 0]

theorem opcodeRows_eq : Machine.opcodeRows = tableInstrs.map Instr.tableRow := rfl

/-- Operands do not change an operation's row. -/
theorem exists_tableInstr (i : Instr) : ∃ j ∈ tableInstrs, j.tableRow = i.tableRow := by
  cases i
  case setSpeed => exact ⟨.setSpeed 0, by decide, rfl⟩
  case dQvalid => exact ⟨.dQvalid 0, by decide, rfl⟩
  case dQoffset => exact ⟨.dQoffset 0, by decide, rfl⟩
  case dAdvance => exact ⟨.dAdvance 0 0, by decide, rfl⟩
  case aDone => exact ⟨.aDone 0, by decide, rfl⟩
  all_goals exact ⟨_, by decide, rfl⟩

/-- The opcode table holds the rows of the operations and no others. -/
theorem mem_opcodeRows_iff (r : Port × Word × Word) : r ∈ Machine.opcodeRows ↔ ∃ i : Instr, i.tableRow = r := by
  rw [opcodeRows_eq, List.mem_map]
  constructor
  · rintro ⟨i, -, hi⟩
    exact ⟨i, hi⟩
  · rintro ⟨i, rfl⟩
    exact exists_tableInstr i

/-- R153: an opcode reads the same operation from any fields, up to its operands. -/
theorem operationOf_opc_eq_some (i : Instr) (sel : Byte) (arg : Half) :
    ∃ j, operationOf i.opc sel arg = some j ∧ mustBeZeroOk j sel arg = mustBeZeroOk i sel arg := by
  cases i <;> exact ⟨_, rfl, rfl⟩

/-- A word is legal at a port when it has the opcode of one of its operations, and that operation's must-be-zero bits are 0. -/
theorem exists_decode_eq_instr_iff {p : Port} {w : Word} :
    (∃ i, decode p w = .instr i) ↔ ∃ i : Instr, i.port = p ∧ opcOf w = i.opc ∧ mustBeZeroOk i (selOf w) (argOf w) = true := by
  constructor
  · rintro ⟨i, h⟩
    obtain ⟨hop, -, hz⟩ := decode_eq_instr_iff.mp h
    exact ⟨i, port_eq_of_decode h, operationOf_opc hop, hz⟩
  · rintro ⟨i, rfl, hopc, hz⟩
    obtain ⟨j, hj, hmbz⟩ := operationOf_opc_eq_some i (selOf w) (argOf w)
    exact ⟨j, decode_eq_instr_iff.mpr ⟨hopc ▸ hj, hopc ▸ portOfOpc_opc i, hmbz.trans hz⟩⟩

/-- R151: opcodes from 0x40 are reserved at every port. -/
theorem decode_of_reserved (p : Port) {w : Word} (h : 0x40 ≤ opcOf w) : decode p w = .illegal .reservedOpcode := by
  have hop : operationOf (opcOf w) (selOf w) (argOf w) = none := by
    refine Option.eq_none_iff_forall_ne_some.mpr fun i hi => ?_
    have hlt : i.opc < 0x40 := by cases i <;> simp [Instr.opc]
    have := operationOf_opc hi
    omega
  rw [decode, hop]

/-- Settles O4: each row of the opcode table is some operation's, and a word matches it when it has that operation's opcode and
must-be-zero bits; every operation's opcode lies in its port's range. -/
theorem legalWordsMatchTheMasks : Obligations.LegalWordsMatchTheMasks := by
  refine ⟨fun p w => ?masks, fun p w i h => ?ranges, fun p w h => decode_of_reserved p h⟩
  case masks =>
    rw [exists_decode_eq_instr_iff]
    constructor
    · rintro ⟨i, hport, hmatch⟩
      exact ⟨i.tableRow, (mem_opcodeRows_iff _).mpr ⟨i, rfl⟩, hport, (matches_tableRow_iff w i).mpr hmatch⟩
    · rintro ⟨r, hr, hport, hmatch⟩
      obtain ⟨i, rfl⟩ := (mem_opcodeRows_iff r).mp hr
      exact ⟨i, hport, (matches_tableRow_iff w i).mp hmatch⟩
  case ranges =>
    obtain ⟨hop, -, -⟩ := decode_eq_instr_iff.mp h
    rw [operationOf_opc hop, ← port_eq_of_decode h]
    cases i <;> simp [Instr.port, Instr.opc]

end Sys2Proof
end

section
/-! PROOFS. What a rejected word or argument does (spec/30_encoding.md R155; spec/60_exceptions.md R500). -/

namespace Sys2Proof.Machine

/-- R155: an illegal word raises subcause 2 when it is an operation of another port, and 1 otherwise. -/
theorem subcause_eq (why : IllegalWord) : why.subcause = if why = .wrongPort then 2 else 1 := by
  cases why <;> rfl

theorem subcause_lt (why : IllegalWord) : why.subcause < 256 := by
  cases why <;> decide

theorem State.commandPort_of_illegal {w : Word} {why : IllegalWord} (s : State) (h : decode .host w = .illegal why) :
    s.commandPort w = .next (s.raise (.illegalOp why.subcause)) := by
  simp only [State.commandPort, h]

theorem State.audioPort_of_illegal {w : Word} {why : IllegalWord} (s : State) (h : decode .audio w = .illegal why) :
    s.audioPort w = .next (s.raise (.illegalOp why.subcause)) := by
  simp only [State.audioPort, h]

theorem State.displayPort_of_illegal {w : Word} {why : IllegalWord} (s : State) (c : Caller)
    (h : decode .display w = .illegal why) :
    s.displayPort c w = .next ((State.raise { s with env.caller := c } (.illegalOp why.subcause)).respond 0) := by
  simp only [State.displayPort, h]

/-- R233: a speed outside -16 to 3 is rejected. -/
theorem exec_setSpeed_of_illegal {arg : Half} (s : State) (h : arg.toInt < -16 ∨ 3 < arg.toInt) :
    exec (.setSpeed arg) s = .next (s.raise (.illegalOp 3)) := by
  have hl : speedLegal (speedOf arg) = false := by
    rw [← Bool.not_eq_true, speedLegal, speedOf, Bool.and_eq_true, decide_eq_true_eq, decide_eq_true_eq]
    omega
  rw [exec, execSetSpeed, hl]
  rfl

/-- R456: the return of a slot that is not given is rejected. -/
theorem exec_aDone_of_not_given {sel : Byte} (s : State) (h : (s.slot (unitOf sel)).given = false) :
    exec (.aDone sel) s = .next (s.raise (.illegalOp 4)) := by
  rw [exec, execADone, h]
  rfl

/-- Settles O7: each rejection is `State.raise` of `ILLEGAL_OP` with its subcause, the display port's with a response of 0. -/
theorem illegalWordsOnlyRaise : Obligations.IllegalWordsOnlyRaise := by
  refine fun s => ⟨fun w why => ?words, fun arg h => ?speed, fun sel h => ?done⟩
  case words =>
    rw [← subcause_eq]
    refine ⟨fun h => ?host, fun h => ?audio, fun c h => ?display⟩
    case host => exact ⟨_, s.commandPort_of_illegal h, s.raise_illegalOp _ (subcause_lt why)⟩
    case audio => exact ⟨_, s.audioPort_of_illegal h, s.raise_illegalOp _ (subcause_lt why)⟩
    case display => exact ⟨_, s.displayPort_of_illegal c h, rfl, State.raise_illegalOp _ _ (subcause_lt why)⟩
  case speed => exact ⟨_, exec_setSpeed_of_illegal s h, s.raise_illegalOp 3 (by decide)⟩
  case done => exact ⟨_, exec_aDone_of_not_given s h, s.raise_illegalOp 4 (by decide)⟩

end Sys2Proof.Machine
end

section
/-! PROOFS. The response words of the display port for a visible row (spec/30_encoding.md R157; spec/43_display_sync.md R400 to R403). -/

namespace Sys2Proof.Machine

/-! ## The two fields of a response (R157) -/

theorem getLsbD_validBit_or (off : Word) : (0x80000000 ||| off).getLsbD 31 = true := by
  rw [BitVec.getLsbD_or]
  rfl

/-- The low 31 bits of a response with `VALID = 1` are the offset it carries. -/
theorem toNat_validBit_or_mod {off : Word} (h : off.toNat < 2 ^ 31) : (0x80000000 ||| off).toNat % 2 ^ 31 = off.toNat := by
  rw [BitVec.toNat_or, Nat.or_mod_two_pow, Nat.mod_eq_of_lt h, show (0x80000000 : Word).toNat % 2 ^ 31 = 0 from rfl, Nat.zero_or]

/-! ## The row table and the answers -/

/-- R400, R402: the row table has an entry for the slot of each row, a byte offset inside RING. -/
theorem RowTableOk.rowOffset {s : State} (h : RowTableOk s) (t : Nat) :
    s.rt[s.slotOfRow t]? = some (s.rowOffset (s.slotOfRow t)) ∧ (s.rowOffset (s.slotOfRow t)).toNat < 4 * s.cfg.ringWords := by
  obtain ⟨hlen, hval⟩ := h
  have hp := params_facts s.cfg
  have hlt : s.slotOfRow t < s.rt.length := hlen ▸ addN_lt (by omega) _ _
  have hrow : s.rowOffset (s.slotOfRow t) = s.rt[s.slotOfRow t] := by simp [State.rowOffset, List.getD, hlt]
  rw [hrow]
  exact ⟨List.getElem?_eq_getElem hlt, hval _ (List.getElem_mem hlt)⟩

theorem exec_dQvalid_of_visible {s : State} {t : Half} (h : RowVisible s t.toNat) :
    exec (.dQvalid t) s = .next (s.respond 0x80000000) := by
  rw [exec, execDQvalid, rowOf, (s.rowOk_iff _).mpr h]
  rfl

theorem exec_dQoffset_of_visible {s : State} {t : Half} (h : RowVisible s t.toNat) :
    exec (.dQoffset t) s = .next (s.respond (s.validResponse t.toNat)) := by
  rw [exec, execDQoffset, rowOf, (s.rowOk_iff _).mpr h]
  rfl

/-- R403: to a visible row `d.advance` answers the row's offset, whatever it moves and releases. -/
theorem exec_dAdvance_of_visible {s : State} {t : Half} (sel : Byte) (h : RowVisible s t.toNat) :
    ∃ u : State, exec (.dAdvance sel t) s = .next (u.respond (s.validResponse t.toNat)) ∧ u.env = s.env := by
  have hok := (s.rowOk_iff _).mpr h
  obtain ⟨hshowing, -, -⟩ := h
  refine ⟨if s.dsp.armed then (s.setPos (unitOf sel) t).release else s.setPos (unitOf sel) t, ?_, ?_⟩
  · rw [exec, execDAdvance, rowOf, hok, hshowing]
    rfl
  · split
    · rw [State.release_eq]
      rfl
    · rfl

/-- Settles O16: the response to a visible row is the valid bit over the row's entry in the table, or over 0. -/
theorem responseFieldsOfVisibleRow : Obligations.ResponseFieldsOfVisibleRow := by
  intro s t htable hvisible
  have hp := params_facts s.cfg
  obtain ⟨hentry, hlt⟩ := htable.rowOffset t.toNat
  have hmod : (s.validResponse t.toNat).toNat % 2 ^ 31 = (s.rowOffset (s.slotOfRow t.toNat)).toNat :=
    toNat_validBit_or_mod (by omega)
  refine ⟨fun i hi => ?offset, _, 0x80000000, exec_dQvalid_of_visible hvisible, rfl, rfl, rfl⟩
  case offset =>
    obtain ⟨u, hexec, henv⟩ :
        ∃ u : State, exec i s = .next (u.respond (s.validResponse t.toNat)) ∧ u.env = s.env := by
      rcases hi with rfl | ⟨sel, rfl⟩
      · exact ⟨s, exec_dQoffset_of_visible hvisible, rfl⟩
      · exact exec_dAdvance_of_visible sel hvisible
    refine ⟨_, s.validResponse t.toNat, hexec, by rw [State.respond_env, henv], getLsbD_validBit_or _, ?_, ?_⟩
    · rwa [hmod]
    · rw [hmod, BitVec.ofNat_toNat, BitVec.setWidth_eq]
      exact hentry

end Sys2Proof.Machine
end

section
/-! PROOFS. The default stream directory (spec/30_encoding.md R175, R176). -/

namespace Sys2Proof.Machine

/-- R175: an entry is listed when its type and its length are not 0. -/
theorem mbrEntry_eq (b : Nat → Byte) (i : Nat) :
    mbrEntry b i =
      ([i].filter fun i => b (0x1BE + 16 * i + 4) ≠ 0 ∧ le32 b (0x1BE + 16 * i + 12) ≠ 0).map
        fun i => { base := le32 b (0x1BE + 16 * i + 8), len := le32 b (0x1BE + 16 * i + 12) } := by
  have hlisted : (b (0x1BE + 16 * i + 4) != 0 && le32 b (0x1BE + 16 * i + 12) != 0) =
      decide (b (0x1BE + 16 * i + 4) ≠ 0 ∧ le32 b (0x1BE + 16 * i + 12) ≠ 0) := by
    rw [Bool.eq_iff_iff]
    simp
  rw [mbrEntry, hlisted, List.filter_singleton]
  cases decide (b (0x1BE + 16 * i + 4) ≠ 0 ∧ le32 b (0x1BE + 16 * i + 12) ≠ 0) <;> rfl

/-- Settles O29: with the signature the four entries are listed in their order, and without it the whole device. -/
theorem defaultDirectoryLists : Obligations.DefaultDirectoryLists := by
  refine fun p b => ⟨fun h => if_neg (by simpa using h), fun h => ?signed⟩
  case signed =>
    rw [mbrDirectory, if_pos (by simpa using h), show List.range 4 = [0] ++ [1] ++ [2] ++ [3] from rfl]
    simp only [mbrEntry_eq, List.filter_append, List.map_append]

end Sys2Proof.Machine
end

section
/-! PROOFS. The eight header checks and the acceptance of a header (spec/41_decoder_fsm.md R283 to R285). -/

namespace Sys2Proof.Machine

/-- R160: the row-offset table of a header sector has an entry for each row and one past the last. -/
theorem parseHeader_ro (p : Params) (b : Nat → Byte) {r : Nat} (h : r ≤ p.rows) :
    (parseHeader p b).ro[r]? = some (le16 b (0x050 + 2 * r)) := by
  simp [parseHeader, Nat.lt_succ_of_le h]

theorem parseHeader_roAt (p : Params) (b : Nat → Byte) {r : Nat} (h : r ≤ p.rows) :
    (parseHeader p b).roAt r = (le16 b (0x050 + 2 * r)).toNat := by
  rw [Header.roAt, List.getD, parseHeader_ro p b h, Option.getD_some]

/-- R161: the eight links of a header sector. -/
theorem parseHeader_link (p : Params) (b : Nat → Byte) {i : Nat} (h : i < 8) :
    (parseHeader p b).link[i] = le32 b (0x02C + 4 * i) := by
  interval_cases i <;> rfl

/-- R285, check 7, on the bytes of the header sector. -/
theorem rowTableOk_parseHeader_iff (p : Params) (cur : Word) (b : Nat → Byte) :
    rowTableOk p (parseHeader p b) = true ↔ HeaderCheck p cur b 7 := by
  simp only [rowTableOk, HeaderCheck, Bool.and_eq_true, beq_iff_eq, List.all_eq_true, List.mem_range, decide_eq_true_eq, and_assoc,
    parseHeader_roAt p b (Nat.zero_le _), parseHeader_roAt p b (Nat.le_refl _)]
  refine and_congr_right fun _ => and_congr_left fun _ => forall₂_congr fun r hr => ?_
  rw [parseHeader_roAt p b (Nat.le_of_lt hr), parseHeader_roAt p b hr]

/-- A check passes over to the ones after it when its test of failure does not hold. -/
theorem check_passes_iff {c : Prop} [Decidable c] {v : Nat} {rest : Option Nat} :
    (if c then some v else rest) = none ↔ ¬c ∧ rest = none := by
  split <;> simp [*]

/-- R285: a header is valid when all eight checks pass. -/
theorem validate_eq_none_iff (p : Params) (cur : Word) (b : Nat → Byte) :
    validate p cur b = none ↔ ∀ v, 1 ≤ v → v ≤ 8 → HeaderCheck p cur b v := by
  have hall : (∀ v, 1 ≤ v → v ≤ 8 → HeaderCheck p cur b v) ↔
      HeaderCheck p cur b 1 ∧ HeaderCheck p cur b 2 ∧ HeaderCheck p cur b 3 ∧ HeaderCheck p cur b 4 ∧ HeaderCheck p cur b 5
        ∧ HeaderCheck p cur b 6 ∧ HeaderCheck p cur b 7 ∧ HeaderCheck p cur b 8 := by
    constructor
    · intro h
      refine ⟨h 1 ?_ ?_, h 2 ?_ ?_, h 3 ?_ ?_, h 4 ?_ ?_, h 5 ?_ ?_, h 6 ?_ ?_, h 7 ?_ ?_, h 8 ?_ ?_⟩ <;> decide
    · rintro ⟨h1, h2, h3, h4, h5, h6, h7, h8⟩ v hlo hhi
      interval_cases v <;> assumption
  rw [hall, ← rowTableOk_parseHeader_iff p cur b]
  simp only [validate, check_passes_iff, and_true]
  refine and_congr ?magic0 <| and_congr ?magic1 <| and_congr ?bytes <| and_congr ?sector <| and_congr ?size <|
    and_congr ?image <| and_congr ?rows ?audio
  case magic0 => simp [HeaderCheck]
  case magic1 => simp [HeaderCheck]
  case bytes => simp [HeaderCheck, parseHeader]
  case sector => simp [HeaderCheck, parseHeader]
  case size => simp [HeaderCheck, parseHeader]
  case image => simp [HeaderCheck, parseHeader]; omega
  case rows => simp
  case audio => simp [HeaderCheck, parseHeader]

/-- R283: with its read complete, READING_HEADER accepts a valid header. -/
theorem decStep_of_valid_header {s : State} (hen : s.fsm.en = true) (hstate : s.fsm.state = .readingHeader)
    (hbusy : s.dma.busy = false) (hvalid : validate s.cfg s.seq.curSector s.hdrByte = none) :
    decStep s = some (s.accept.goto .needVideo) := by
  rw [decStep_enabled hen, decStateStep, hstate]
  simp only [decReadingHeader, hbusy, hvalid]
  rfl

/-- Settles O33: `State.accept` latches what `parseHeader` reads, and the checks tie three of its fields to the sector number and the
parameters. -/
theorem acceptanceLatchesTheHeader : Obligations.AcceptanceLatchesTheHeader := by
  intro s hen hstate hbusy hchecks
  have hvalid := (validate_eq_none_iff ..).mpr hchecks
  have hbytes : (le16 s.hdrByte 0x022).toNat = 0x50 + 2 * (s.cfg.rows + 1) := hchecks 3 (by decide) (by decide)
  have hsector : le32 s.hdrByte 0x004 = s.seq.curSector := hchecks 4 (by decide) (by decide)
  obtain ⟨hwidth, hheight⟩ : (le16 s.hdrByte 0x010).toNat = s.cfg.width ∧ (le16 s.hdrByte 0x012).toNat = s.cfg.height :=
    hchecks 5 (by decide) (by decide)
  exact ⟨_, decStep_of_valid_header hen hstate hbusy hvalid, rfl, hsector, rfl, rfl, hwidth, hheight, rfl, rfl, rfl, rfl, hbytes, rfl,
    rfl, fun _ hi => parseHeader_link s.cfg s.hdrByte hi, fun _ hr => parseHeader_ro s.cfg s.hdrByte hr, rfl, rfl, rfl, rfl, rfl⟩

end Sys2Proof.Machine
end

section
/-! PROOFS. What each host command changes and leaves unchanged (spec/40_commands.md R230 to R240). -/

namespace Sys2Proof

/-- R231: with opcode 0, a word other than `nop`'s sets a bit that must be 0. -/
theorem decode_of_opc_zero {w : Word} (h : opcOf w = 0) (hw : w ≠ 0) : decode .host w = .illegal .nonzeroMustBeZero := by
  have hbad : mustBeZeroOk .nop (selOf w) (argOf w) = false := by
    rw [← Bool.not_eq_true]
    intro hz
    have hnop : decode .host w = .instr .nop := decode_eq_instr_iff.mpr ⟨by rw [h]; rfl, by rw [h]; rfl, hz⟩
    obtain ⟨-, -, hword⟩ := decode_eq_instr_iff_encode.mp hnop
    exact hw hword.symm
  rw [decode, h]
  simp [operationOf, portOfOpc, hbad]

end Sys2Proof

namespace Sys2Proof.Machine

/-! ## What a command depends on (R230) -/

/-- `s` with other buffers, row-offset table, row indices and audio slots. -/
def State.withPipeline (s : State) (mem : Mem) (rt : List Word) (win : Window) (slot0 slot1 : AudioSlot) : State :=
  { s with mem := mem, rt := rt, win := win, slot0 := slot0, slot1 := slot1 }

/-- A test, or any other view of the state, that does not read the buffers, `RT`, the row indices or the slots. -/
def PipelineBlind {α : Type} (view : State → α) : Prop :=
  ∀ s mem rt win slot0 slot1, view (s.withPipeline mem rt win slot0 slot1) = view s

/-- An update that neither reads nor writes the buffers, `RT`, the row indices or the slots: it commutes with replacing them. -/
def PipelineFree (f : State → State) : Prop :=
  ∀ s mem rt win slot0 slot1, f (s.withPipeline mem rt win slot0 slot1) = (f s).withPipeline mem rt win slot0 slot1

theorem PipelineFree.ite {c : State → Prop} [DecidablePred c] {f g : State → State} (hc : PipelineBlind c)
    (hf : PipelineFree f) (hg : PipelineFree g) : PipelineFree fun s => if c s then f s else g s := by
  intro s mem rt win slot0 slot1
  simp only [hc s mem rt win slot0 slot1]
  split
  · exact hf ..
  · exact hg ..

/-- Replacing the pipeline by itself shows that such an update keeps it. -/
theorem PipelineFree.keeps {f : State → State} (hf : PipelineFree f) (s : State) :
    (f s).mem = s.mem ∧ (f s).rt = s.rt ∧ (f s).win = s.win ∧ (f s).slot0 = s.slot0 ∧ (f s).slot1 = s.slot1 := by
  have hself : f s = (f s).withPipeline s.mem s.rt s.win s.slot0 s.slot1 := hf s s.mem s.rt s.win s.slot0 s.slot1
  rw [hself]
  exact ⟨rfl, rfl, rfl, rfl, rfl⟩

/-- R230: each host command completes, and is such an update. -/
theorem exec_pipelineFree {i : Instr} (h : i.port = .host) :
    ∃ f : State → State, (∀ s, exec i s = .next (f s)) ∧ PipelineFree f := by
  have stay : PipelineFree id := fun _ _ _ _ _ _ => rfl
  have streamsKnown : PipelineBlind fun s => s.strm.count.toNat > 0 := fun _ _ _ _ _ _ => rfl
  have headerKnown : PipelineBlind fun s => s.hdrValid = true := fun _ _ _ _ _ _ => rfl
  cases i
  case dQvalid | dQoffset | dAdvance | dTick | aDone => cases h
  case nop => exact ⟨id, fun _ => rfl, stay⟩
  case playPause | toggleDir | volUp | volDown => exact ⟨_, fun _ => rfl, fun _ _ _ _ _ _ => rfl⟩
  case setSpeed arg =>
    by_cases hl : speedLegal (speedOf arg) = true
    · exact ⟨_, fun _ => if_pos hl, fun _ _ _ _ _ _ => rfl⟩
    · exact ⟨_, fun _ => if_neg hl, fun _ _ _ _ _ _ => rfl⟩
  case stepFwd | stepBack => exact ⟨_, fun _ => rfl, .ite headerKnown (fun _ _ _ _ _ _ => rfl) stay⟩
  case nextStream | prevStream => exact ⟨_, fun _ => rfl, .ite streamsKnown (fun _ _ _ _ _ _ => rfl) stay⟩

/-- Settles O14: each command is one update that commutes with replacing the pipeline, and so keeps it. -/
theorem commandsLeaveTheRingAlone : Obligations.CommandsLeaveTheRingAlone := by
  intro i s mem rt win slot0 slot1 hport
  obtain ⟨f, hexec, hfree⟩ := exec_pipelineFree hport
  obtain ⟨hmem, hrt, hwin, hslot0, hslot1⟩ := hfree.keeps s
  exact ⟨f s, hexec s, hmem, hrt, hwin, hslot0, hslot1, (hexec _).trans (congrArg _ (hfree s mem rt win slot0 slot1))⟩

/-! ## Each command -/

/-- Settles O8: a word of opcode 0 that decodes to `nop` is the word `nop` encodes to. -/
theorem nopChangesNothing : Obligations.NopChangesNothing :=
  ⟨fun _ => rfl, rfl, fun _ h hw => ⟨_, decode_of_opc_zero h hw, rfl⟩⟩

/-- Settles O9: negating a flag twice gives the flag back. -/
theorem togglesFlipOneFlag : Obligations.TogglesFlipOneFlag := by
  intro s
  refine ⟨⟨_, rfl, rfl, rfl, fun _ => rfl, ?paused⟩, ⟨_, rfl, rfl, rfl, fun _ => rfl, ?dir⟩, rfl, rfl⟩
  case paused => simp [exec, execPlayPause]
  case dir => simp [exec, execToggleDir]

/-- R233: a legal argument becomes the speed. -/
theorem exec_setSpeed_of_legal {arg : Half} (s : State) (h : -16 ≤ arg.toInt ∧ arg.toInt ≤ 3) :
    exec (.setSpeed arg) s = .next { s with ctl.speed := BitVec.ofInt 8 arg.toInt } :=
  if_pos (by simp [speedLegal, speedOf, h])

/-- Settles O10: a legal speed fits the 8 bits of `S.speed`, and any other is rejected as in O7. -/
theorem setSpeedChecksTheRange : Obligations.SetSpeedChecksTheRange := by
  have hopcode : BitVec.ofNat 32 0x02 <<< 24 ||| (0 : Byte).setWidth 32 <<< 16 = (0x02000000 : Word) := rfl
  refine fun s arg => ⟨fun h => ⟨_, exec_setSpeed_of_legal s h, ?fits, rfl, fun _ => rfl⟩,
    fun h => ⟨_, exec_setSpeed_of_illegal s h, s.raise_illegalOp 3 (by decide), fun _ => rfl⟩, ?word⟩
  case fits =>
    obtain ⟨hlo, hhi⟩ := h
    rw [BitVec.toInt_ofInt, Int.bmod_eq_of_le (by omega) (by omega)]
  case word => exact congrArg (· ||| arg.setWidth 32) hopcode

theorem exec_stepFwd_of_header {s : State} (h : s.hdrValid = true) :
    exec .stepFwd s = .next (s.stepTo (if s.hdr.link[0] = absentLink then 0 else s.hdr.link[0])) :=
  congrArg _ (if_pos h)

theorem exec_stepBack_of_header {s : State} (h : s.hdrValid = true) :
    exec .stepBack s = .next (s.stepTo (if s.hdr.link[1] = absentLink then s.hdr.lastFrameSector else s.hdr.link[1])) :=
  congrArg _ (if_pos h)

/-- Settles O11: with a header each step command is `State.stepTo` its link or, where that is absent, the wrap. -/
theorem stepCommandsSetTheOverride : Obligations.StepCommandsSetTheOverride := by
  refine fun s => ⟨fun h => ?fwd, fun h => ?back, fun h => ?none, rfl, rfl⟩
  case fwd => exact ⟨_, exec_stepFwd_of_header h, rfl, rfl, fun hl => if_pos hl, fun hl => if_neg hl, rfl, rfl, fun _ => rfl⟩
  case back => exact ⟨_, exec_stepBack_of_header h, rfl, rfl, fun hl => if_pos hl, fun hl => if_neg hl, rfl, rfl, fun _ => rfl⟩
  case none =>
    have hnone : ¬s.hdrValid = true := by simp [h]
    exact ⟨congrArg _ (if_neg hnone), congrArg _ (if_neg hnone)⟩

theorem exec_nextStream_of_streams {s : State} (h : 0 < s.strm.count.toNat) :
    exec .nextStream s = .next (s.switchStream (s.switchBase + 1)) :=
  congrArg _ (if_pos h)

theorem exec_prevStream_of_streams {s : State} (h : 0 < s.strm.count.toNat) :
    exec .prevStream s = .next (s.switchStream (s.switchBase + s.strm.count.toNat - 1)) :=
  congrArg _ (if_pos h)

/-- R237, R238: a stream number fits the 8 bits of the override. -/
theorem State.switchStream_stream {s : State} (k : Nat) (h : 0 < s.strm.count.toNat) :
    (s.switchStream k).ovr.stream.toNat = k % s.strm.count.toNat := by
  have hcount := s.strm.count.isLt
  have hmod := Nat.mod_lt k h
  rw [State.switchStream, BitVec.toNat_ofNat]
  omega

/-- Settles O12: with streams known each stream command is `State.switchStream` counted from the base. -/
theorem streamCommandsSetTheOverride : Obligations.StreamCommandsSetTheOverride := by
  rintro s base rfl
  refine ⟨fun h => ?next, fun h => ?prev, fun h => ?none, rfl, rfl⟩
  case next => exact ⟨_, exec_nextStream_of_streams h, rfl, State.switchStream_stream _ h, rfl, rfl, fun _ => rfl⟩
  case prev => exact ⟨_, exec_prevStream_of_streams h, rfl, State.switchStream_stream _ h, rfl, rfl, fun _ => rfl⟩
  case none =>
    have hnone : ¬s.strm.count.toNat > 0 := by omega
    exact ⟨congrArg _ (if_neg hnone), congrArg _ (if_neg hnone)⟩

/-- Settles O13: `min` and the natural subtraction keep the moved volume in 8 bits. -/
theorem volumeCommandsSaturate : Obligations.VolumeCommandsSaturate := by
  intro s
  have hlt := s.ctl.volume.isLt
  refine ⟨⟨_, rfl, ?up, rfl, fun _ => rfl⟩, ⟨_, rfl, ?down, rfl, fun _ => rfl⟩, rfl, rfl⟩
  all_goals
    rw [BitVec.toNat_ofNat, Config.volStep]
    omega

end Sys2Proof.Machine
end

section
/-! PROOFS. The control registers: what a write sets, and what a read shows, field by field (spec/10_state.md R57 to R69;
spec/40_commands.md R241, R242; spec/60_exceptions.md R511). -/

namespace Sys2Proof.Machine

/-! ## Writes (R241) -/

/-- A HOST write of a register other than `CMD` reaches `State.writeReg`. -/
theorem State.runTurn_writeReg {addr : Word} (s : State) (v : Word) (hlow : addr.toNat < 0x100) (haligned : addr.toNat % 4 = 0)
    (hcmd : addr.toNat ≠ 0x0C) : s.runTurn (.hostWrite addr 4 v) = .next (s.writeReg addr.toNat v) := by
  have haccepted : writeAccepted addr 4 = true := by simp [writeAccepted, hlow, haligned]
  rw [State.runTurn, State.hostWrite, if_pos haccepted, if_neg hcmd]

/-- R241: read-only and reserved offsets ignore a write. -/
theorem State.writeReg_of_readOnly {off : Nat} (s : State) (v : Word) (h : off ∉ [0x04, 0x14, 0x44, 0x48]) :
    s.writeReg off v = s := by
  unfold State.writeReg
  split
  case h_5 => rfl
  all_goals exact absurd h (by decide)

/-- Settles O48: each writable register's case of `State.writeReg`, and the offsets it has no case for. -/
theorem registerWritesSetTheirFields : Obligations.RegisterWritesSetTheirFields := by
  refine fun s v => ⟨fun hkeep => ?ctrl, ⟨_, rfl, BitVec.toNat_setWidth .., rfl⟩, ⟨_, rfl, fun i hi => ?status, rfl⟩,
    ⟨_, rfl, fun i hi => ?enable, rfl⟩, fun addr hlow haligned hother => ?other⟩
  case ctrl => exact congrArg _ (if_neg (by rw [hkeep]; decide))
  case status =>
    show (s.ev.irqStatus &&& ~~~(v.setWidth 6)).getLsbD i = _
    simp [hi]
  case enable =>
    show (v.setWidth 6).getLsbD i = _
    simp [hi]
  case other =>
    simp only [List.mem_cons, List.not_mem_nil, or_false, not_or, BitVec.toNat_eq] at hother
    obtain ⟨hctrl, hcmd, hvolume, hstatus, henable⟩ := hother
    rw [s.runTurn_writeReg v hlow haligned hcmd, s.writeReg_of_readOnly v]
    simpa using ⟨hctrl, hvolume, hstatus, henable⟩

/-! ## Words packed from fields -/

/-- A field of a register: its width and its value. -/
abbrev RegField := (w : Nat) × BitVec w

/-- The number whose bits are the fields, the first field lowest. -/
def packFields : List RegField → Nat
  | [] => 0
  | f :: fs => f.2.toNat + 2 ^ f.1 * packFields fs

theorem packFields_lt (fs : List RegField) : packFields fs < 2 ^ (fs.map Sigma.fst).sum := by
  induction fs with
  | nil => exact Nat.one_pos
  | cons f fs ih =>
    have hf := f.2.isLt
    calc packFields (f :: fs) < 2 ^ f.1 * (packFields fs + 1) := by rw [packFields, Nat.mul_add_one]; omega
      _ ≤ 2 ^ f.1 * 2 ^ (fs.map Sigma.fst).sum := Nat.mul_le_mul_left _ ih
      _ = 2 ^ ((f :: fs).map Sigma.fst).sum := by rw [← Nat.pow_add, List.map_cons, List.sum_cons]

theorem packFields_digit (fs : List RegField) (i : Nat) (hi : i < fs.length) :
    packFields fs / 2 ^ ((fs.map Sigma.fst).take i).sum % 2 ^ fs[i].1 = fs[i].2.toNat := by
  induction fs generalizing i with
  | nil => cases hi
  | cons f fs ih =>
    have hf := f.2.isLt
    cases i with
    | zero => simp [packFields, Nat.mod_eq_of_lt hf]
    | succ i =>
      rw [List.map_cons, List.take_succ_cons, List.sum_cons, Nat.pow_add, ← Nat.div_div_eq_div_mul, packFields,
        Nat.add_mul_div_left _ _ (Nat.two_pow_pos _), Nat.div_eq_of_lt hf, Nat.zero_add]
      exact ih i (Nat.lt_of_succ_lt_succ hi)

/-- Each field of a word packed from fields of widths `ws`, 32 bits in all, stands where the fields below it end. The widths are a list
of their own so that the places of the fields are numerals. -/
theorem extract_packFields (fs : List RegField) (ws : List Nat) (i : Nat) (hws : fs.map Sigma.fst = ws := by rfl)
    (h32 : ws.sum = 32 := by rfl) (hi : i < fs.length := by exact Nat.le_of_ble_eq_true rfl) :
    (BitVec.ofNat 32 (packFields fs)).extractLsb' (ws.take i).sum fs[i].1 = fs[i].2 := by
  subst hws
  have hlt : packFields fs < 2 ^ 32 := h32 ▸ packFields_lt fs
  apply BitVec.eq_of_toNat_eq
  rw [BitVec.extractLsb'_toNat, Nat.shiftRight_eq_div_pow, BitVec.toNat_ofNat, Nat.mod_eq_of_lt hlt, packFields_digit]

/-- A register with one field, zero-extended. -/
theorem extract_setWidth {n : Nat} (x : BitVec n) (hn : n ≤ 32) :
    (x.setWidth 32).extractLsb' 0 n = x ∧ (x.setWidth 32).extractLsb' n (32 - n) = 0 := by
  have hpack : x.setWidth 32 = BitVec.ofNat 32 (packFields [⟨n, x⟩, ⟨32 - n, 0⟩]) := by
    simp [packFields, ← BitVec.ofNat_toNat]
  have h32 : [n, 32 - n].sum = 32 := by simp; omega
  rw [hpack]
  exact ⟨extract_packFields _ [n, 32 - n] 0 rfl h32, extract_packFields _ [n, 32 - n] 1 rfl h32⟩

theorem extract_halves (lo hi : Half) : (halves lo hi).extractLsb' 0 16 = lo ∧ (halves lo hi).extractLsb' 16 16 = hi := by
  unfold halves
  constructor
  · ext j hj
    simp [BitVec.getElem_extractLsb', show j < 32 by omega, hj]
  · ext j hj
    simp [BitVec.getElem_extractLsb', show 16 + j < 32 by omega, hj]

/-! ## `STATUS` (R59) -/

/-- The fields of `STATUS`, bit 0 first. -/
def statusFields (s : State) : List RegField :=
  [⟨4, BitVec.ofNat 4 s.fsm.state.code⟩, ⟨1, .ofBool s.ctl.paused⟩, ⟨1, .ofBool s.ctl.dir⟩, ⟨1, .ofBool s.dsp.showing⟩,
   ⟨1, .ofBool s.dsp.armed⟩, ⟨1, .ofBool s.dma.busy⟩, ⟨1, .ofBool s.seq.terminal⟩, ⟨1, .ofBool s.ovr.valid⟩,
   ⟨1, .ofBool s.ctl.stepPending⟩, ⟨2, BitVec.ofNat 2 s.slot0.state.code⟩, ⟨2, BitVec.ofNat 2 s.slot1.state.code⟩,
   ⟨1, .ofBool s.slot0.given⟩, ⟨1, .ofBool s.slot1.given⟩, ⟨1, .ofBool s.next.valid⟩, ⟨1, .ofBool s.next.ready⟩,
   ⟨1, .ofBool s.hdrValid⟩, ⟨1, .ofBool s.fsm.en⟩, ⟨1, .ofBool (irqLine s.ev)⟩, ⟨9, 0#9⟩]

/-- The widths of those fields. -/
def statusWidths : List Nat := [4, 1, 1, 1, 1, 1, 1, 1, 1, 2, 2, 1, 1, 1, 1, 1, 1, 1, 9]

theorem DecState.toNat_code (st : DecState) : (BitVec.ofNat 4 st.code).toNat = st.code := by
  cases st <;> rfl

theorem SlotState.toNat_code (st : SlotState) : (BitVec.ofNat 2 st.code).toNat = st.code := by
  cases st <;> rfl

theorem flagAt_eq (b : Bool) (i : Nat) : flagAt b i = b.toNat * 2 ^ i := by
  cases b <;> simp [flagAt]

theorem statusWord_eq (s : State) : statusWord s = BitVec.ofNat 32 (packFields (statusFields s)) := by
  refine congrArg (BitVec.ofNat 32) ?_
  simp only [flagAt_eq, statusFields, packFields, DecState.toNat_code, SlotState.toNat_code, BitVec.toNat_ofBool, BitVec.toNat_zero]
  omega

/-- R31: a state stands at its code in the spec's order. -/
theorem decStateOrder_code (st : DecState) : decStateOrder[st.code]? = some st := by
  cases st <;> rfl

theorem slotStateOrder_code (st : SlotState) : slotStateOrder[st.code]? = some st := by
  cases st <;> rfl

/-- R511: the interrupt line is up when an enabled status bit is set. -/
theorem irqLine_iff (v : EventState) : irqLine v = true ↔ InterruptRaised v := by
  rw [irqLine, bne_iff_ne, InterruptRaised]
  constructor
  · intro hne
    by_contra hnone
    refine hne (BitVec.eq_of_getLsbD_eq fun i hi => ?_)
    rw [BitVec.getLsbD_and, show (0 : BitVec 6).getLsbD i = false from BitVec.getLsbD_zero, ← Bool.not_eq_true, Bool.and_eq_true]
    exact fun hbit => hnone ⟨i, hi, hbit⟩
  · rintro ⟨i, -, hstatus, henable⟩ hzero
    have hbit := congrArg (BitVec.getLsbD · i) hzero
    simp [hstatus, henable] at hbit

/-- A one-bit field is the bit at its place. -/
theorem getLsbD_of_extract {v : Word} {i : Nat} {b : Bool} (h : v.extractLsb' i 1 = .ofBool b) : v.getLsbD i = b := by
  have hbit := congrArg (BitVec.getLsbD · 0) h
  simpa using hbit

theorem statusShows_statusWord (s : State) : StatusShows s (statusWord s) := by
  have field (i : Nat) (hi : i < (statusFields s).length := by exact Nat.le_of_ble_eq_true rfl) :
      (statusWord s).extractLsb' (statusWidths.take i).sum (statusFields s)[i].1 = (statusFields s)[i].2 := by
    rw [statusWord_eq]
    exact extract_packFields (statusFields s) statusWidths i rfl rfl hi
  have state : (statusWord s).extractLsb' 0 4 = BitVec.ofNat 4 s.fsm.state.code := field 0
  have slot0 : (statusWord s).extractLsb' 12 2 = BitVec.ofNat 2 s.slot0.state.code := field 9
  have slot1 : (statusWord s).extractLsb' 14 2 = BitVec.ofNat 2 s.slot1.state.code := field 10
  have irq : (statusWord s).getLsbD 22 = irqLine s.ev := getLsbD_of_extract (field 17)
  exact {
    state := by rw [state, DecState.toNat_code, decStateOrder_code]
    paused := getLsbD_of_extract (field 1)
    dir := getLsbD_of_extract (field 2)
    showing := getLsbD_of_extract (field 3)
    armed := getLsbD_of_extract (field 4)
    dmaBusy := getLsbD_of_extract (field 5)
    terminal := getLsbD_of_extract (field 6)
    ovrValid := getLsbD_of_extract (field 7)
    stepPending := getLsbD_of_extract (field 8)
    slot0State := by rw [slot0, SlotState.toNat_code, slotStateOrder_code]
    slot1State := by rw [slot1, SlotState.toNat_code, slotStateOrder_code]
    slot0Given := getLsbD_of_extract (field 11)
    slot1Given := getLsbD_of_extract (field 12)
    nextValid := getLsbD_of_extract (field 13)
    nextReady := getLsbD_of_extract (field 14)
    hdrValid := getLsbD_of_extract (field 15)
    en := getLsbD_of_extract (field 16)
    irq := by rw [irq, irqLine_iff]
    reserved := field 18 }

/-! ## Reads of the registers (R242) -/

theorem State.readReg_ctrl (s : State) :
    (s.readReg 0x04).getLsbD 0 = s.fsm.en ∧ (s.readReg 0x04).extractLsb' 1 31 = 0 := by
  have hpack : s.readReg 0x04 = BitVec.ofNat 32 (packFields [⟨1, .ofBool s.fsm.en⟩, ⟨31, 0#31⟩]) := by
    simp [State.readReg, packFields, flagAt_eq]
  rw [hpack]
  exact ⟨getLsbD_of_extract (extract_packFields _ [1, 31] 0), extract_packFields _ [1, 31] 1⟩

theorem State.readReg_stream (s : State) :
    (s.readReg 0x2C).extractLsb' 0 8 = s.strm.sel ∧ (s.readReg 0x2C).extractLsb' 8 8 = s.strm.count
      ∧ (s.readReg 0x2C).extractLsb' 16 8 = s.ovr.stream ∧ (s.readReg 0x2C).extractLsb' 24 8 = 0 := by
  have hpack : s.readReg 0x2C =
      BitVec.ofNat 32 (packFields [⟨8, s.strm.sel⟩, ⟨8, s.strm.count⟩, ⟨8, s.ovr.stream⟩, ⟨8, 0#8⟩]) := by
    refine congrArg (BitVec.ofNat 32) ?_
    simp only [packFields, BitVec.toNat_zero]
    omega
  rw [hpack]
  exact ⟨extract_packFields _ [8, 8, 8, 8] 0, extract_packFields _ [8, 8, 8, 8] 1, extract_packFields _ [8, 8, 8, 8] 2,
    extract_packFields _ [8, 8, 8, 8] 3⟩

theorem State.readReg_cause (s : State) :
    (s.readReg 0x38).extractLsb' 0 8 = s.ev.cause ∧ (s.readReg 0x38).extractLsb' 8 8 = s.ev.subcause
      ∧ (s.readReg 0x38).extractLsb' 16 16 = 0 := by
  have hpack : s.readReg 0x38 = BitVec.ofNat 32 (packFields [⟨8, s.ev.cause⟩, ⟨8, s.ev.subcause⟩, ⟨16, 0#16⟩]) := by
    refine congrArg (BitVec.ofNat 32) ?_
    simp only [packFields, BitVec.toNat_zero]
    omega
  rw [hpack]
  exact ⟨extract_packFields _ [8, 8, 16] 0, extract_packFields _ [8, 8, 16] 1, extract_packFields _ [8, 8, 16] 2⟩

/-- R57: an offset past the registers, or between them, reads 0. -/
theorem State.readReg_of_reserved {off : Nat} (s : State)
    (h : off ∉ [0x00, 0x04, 0x08, 0x10, 0x14, 0x18, 0x1C, 0x20, 0x24, 0x28, 0x2C, 0x30, 0x34, 0x38, 0x3C, 0x40, 0x44, 0x48, 0x4C,
      0x50, 0x54, 0x58, 0x5C]) : s.readReg off = 0 := by
  unfold State.readReg
  split
  case h_24 => rfl
  all_goals exact absurd h (by decide)

/-- Every register shows the fields the spec gives it: the arms of `RegisterShows`, by the shape of the register. -/
theorem State.registerShows_readReg (s : State) (off : Nat) : RegisterShows s off (s.readReg off) := by
  unfold RegisterShows
  split
  -- `CTRL`, `STATUS`, `STREAM` and `CAUSE`: packed from several fields
  case h_2 => exact s.readReg_ctrl
  case h_3 => exact statusShows_statusWord s
  case h_11 => exact s.readReg_stream
  case h_14 => exact s.readReg_cause
  -- one field narrower than the register
  case h_4 | h_5 | h_17 | h_18 | h_22 => exact extract_setWidth _ (by decide)
  -- two row indices, positions or counts
  case h_6 | h_7 | h_20 | h_21 => exact extract_halves _ _
  -- a whole word
  case h_1 | h_8 | h_9 | h_10 | h_12 | h_13 | h_15 | h_16 | h_19 | h_23 => rfl
  case h_24 => exact s.readReg_of_reserved (by simp only [List.mem_cons, List.not_mem_nil, not_or]; tauto)

/-- Settles O50: a 4-byte read of CSR is accepted, answers `State.readReg` and draws no free byte. -/
theorem registerReadsShowTheState : Obligations.RegisterReadsShowTheState := by
  intro s r off hr hlow haligned
  have haddr : (BitVec.ofNat 32 off).toNat = off := by
    rw [BitVec.toNat_ofNat]
    omega
  have haccepted : s.readAccepted r (BitVec.ofNat 32 off) 4 = some .csr := by
    rw [State.readAccepted_eq_some_iff, haddr]
    exact ⟨hlow, rfl, haligned, s.mayRead_of_ne_aud _ hr⟩
  have hread := State.busRead_accepted haccepted
  rw [haddr] at hread
  exact ⟨s.readReg off, congrArg _ hread, s.registerShows_readReg off, rfl⟩

end Sys2Proof.Machine
end

section
/-! PROOFS. The states of DEC that read the directory, the header and the audio, choose the next frame and recover
(spec/41_decoder_fsm.md R280 to R282, R286, R290, R293 to R296, R298). -/

namespace Sys2Proof.Machine

/-! ## The outstanding read (R298) -/

theorem ReadPolled.of_idle {s : State} (h : s.dma.busy = false) : ReadPolled s :=
  fun hb => absurd hb (by simp [h])

/-- A state that does not poll has no read outstanding. -/
theorem ReadPolled.idle {s : State} (h : ReadPolled s)
    (hst : s.fsm.state ∉ [.init, .readingHeader, .readingVideo, .readingAudio]) : s.dma.busy = false := by
  refine Bool.eq_false_iff.mpr fun hb => hst ?_
  simpa using h hb

/-- A step that issues no read and leaves DEC's state polls still. -/
theorem ReadPolled.of_keeps {s t : State} (h : ReadPolled s) (hbusy : t.dma.busy = true → s.dma.busy = true)
    (hstate : t.fsm.state = s.fsm.state) : ReadPolled t := by
  intro hb
  rw [hstate]
  exact h (hbusy hb)

theorem WordKeeps.readPolled {s t : State} (h : WordKeeps s t) (hs : ReadPolled s) : ReadPolled t := by
  have hbusy : t.dma.busy = s.dma.busy := by rcases h.dma with hd | hd <;> rw [hd]; rfl
  rcases h.dec with ⟨hfsm, -, -, -⟩ | ⟨hinit, -, -⟩
  · exact hs.of_keeps (hbusy ▸ id) (congrArg Fsm.state hfsm)
  · exact fun _ => .inl hinit

theorem State.writeReg_readPolled {s : State} (h : ReadPolled s) (off : Nat) (v : Word) : ReadPolled (s.writeReg off v) := by
  unfold State.writeReg
  split
  · split
    · exact fun _ => .inl rfl
    · exact h
  all_goals exact h

theorem State.adopt_dma (s : State) (found : List Stream) : (s.adopt found).dma = s.dma := by
  simp only [State.adopt]
  split <;> rfl

theorem State.formatError_dma (s : State) (v : Nat) : (s.formatError v).dma = s.dma := by
  simp only [State.formatError, State.goto_dma]
  split <;> rfl

/-- A step that waits for the read, and goes on without issuing another. -/
theorem ReadPolled.of_waits {s t u : State} (h : (if s.dma.busy then none else some u) = some t) (hu : u.dma = s.dma) :
    ReadPolled t := by
  split at h
  · cases h
  · obtain rfl := Option.some.inj h
    exact .of_idle (by simpa [hu] using ‹¬s.dma.busy = true›)

theorem decInit_readPolled {s t : State} (hst : s.fsm.state = .init) (h : decInit s = some t) : ReadPolled t := by
  unfold decInit at h
  split at h
  · cases h
  · split at h <;> obtain rfl := Option.some.inj h
    · exact .of_idle (by simpa [s.adopt_dma] using ‹¬s.dma.busy = true›)
    · exact fun _ => .inl hst

theorem decReadingHeader_readPolled {s t : State} (h : decReadingHeader s = some t) : ReadPolled t := by
  unfold decReadingHeader at h
  split at h
  · cases h
  · split at h <;> obtain rfl := Option.some.inj h
    · exact .of_idle (by simpa [State.accept] using ‹¬s.dma.busy = true›)
    · exact .of_idle (by simpa [s.formatError_dma] using ‹¬s.dma.busy = true›)

/-- R291, R292: what the audio does to a slot's buffer issues no read. -/
theorem decPostProcessAudio_dma {s t : State} (h : decPostProcessAudio s = some t) : t.dma = s.dma := by
  unfold decPostProcessAudio at h
  split at h
  · cases h
  · rename_i k _
    obtain rfl := Option.some.inj h
    obtain ⟨a, b, o, hh⟩ := State.tryHandoff_eq
      ((s.postProcess k).setSlot k { (s.postProcess k).slot k with state := .queued }) k
    simp only [hh]
    rw [s.postProcess_eq k]
    rfl

theorem decStep_readPolled {s t : State} (hs : ReadPolled s) (h : decStep s = some t) : ReadPolled t := by
  replace h := (decStep_some h).2
  cases hst : s.fsm.state <;> simp only [decStateStep, hst] at h
  -- the states that wait for the read
  case init => exact decInit_readPolled hst h
  case readingHeader => exact decReadingHeader_readPolled h
  case readingVideo | readingAudio => exact .of_waits h rfl
  -- the states that issue one, and go to a state that waits for it
  case needHeader =>
    unfold decNeedHeader at h
    split at h
    · cases h
    · exact Option.some.inj h ▸ fun _ => .inr (.inl rfl)
  case preppingVideo =>
    unfold decPreppingVideo at h
    split at h
    · cases h
    · obtain ⟨u, -, rfl⟩ := Option.map_eq_some_iff.mp h
      exact fun _ => .inr (.inr (.inl rfl))
  case needAudio =>
    unfold decNeedAudio at h
    split at h
    · cases h
    · split at h
      · cases h
      · exact Option.some.inj h ▸ fun _ => .inr (.inr (.inr rfl))
  -- the states with none outstanding, that issue none
  all_goals
    have hidle : s.dma.busy = false := hs.idle (by rw [hst]; decide)
    refine .of_idle (Eq.trans ?_ hidle)
  case newFrame =>
    unfold decNewFrame at h
    split at h
    · cases h
    · split at h <;> exact Option.some.inj h ▸ rfl
  case awaitAudioBuffer =>
    obtain ⟨k, -, rfl⟩ := Option.map_eq_some_iff.mp h
    rfl
  case postProcessAudio => rw [decPostProcessAudio_dma h]
  case frameReady =>
    simp only [decFrameReady] at h
    split at h <;> exact Option.some.inj h ▸ rfl
  case error =>
    unfold decError at h
    split at h
    · split at h
      · exact Option.some.inj h ▸ rfl
      · cases h
    · exact Option.some.inj h ▸ rfl
  case needVideo | audioReady | hitEnd => exact Option.some.inj h ▸ rfl

/-- Settles O54: only DEC issues a read, and in a step to a state that polls for it; a reset goes to INIT, which polls. -/
theorem outstandingReadIsPolled : Obligations.OutstandingReadIsPolled := by
  intro s t hs h
  rw [step_eq] at h
  have hu : ReadPolled s.turnTaken := by
    rw [s.turnTaken_eq]
    exact hs
  refine State.runTurn_cases (P := ReadPolled) h ?hold ?dec ?writeReg ?writeError ?run ?runDisplay ?illegal ?illegalDisplay ?busRead
    ?land ?complete
  case hold => exact fun _ _ => hu
  case dec => exact fun _ _ hd => decStep_readPolled hu hd
  case writeReg => exact State.writeReg_readPolled hu
  case writeError => exact hu
  case run => exact fun _ _ _ _ _ _ he => (exec_keeps _ _ _ he).readPolled hu
  case runDisplay => exact fun _ _ _ _ _ he => (exec_keeps _ _ _ he).readPolled hu
  case illegal => exact fun _ => hu
  case illegalDisplay => exact fun _ _ => hu
  case busRead =>
    intro r addr size
    rw [State.busRead_eq]
    exact hu
  case land =>
    intro n
    rw [State.storLand_eq]
    exact hu
  case complete =>
    refine hu.of_keeps (State.storComplete_busy _) ?_
    rw [State.storComplete_eq]

/-! ## INIT (R280) -/

theorem StreamState.entry_eq (t : StreamState) {i : Nat} (h : i < 4) : t.entry i = t.table[i] := by
  rw [StreamState.entry, Vector.getElem?_eq_getElem h, Option.getD_some]

theorem State.foundStreams_length_le (s : State) : s.foundStreams.length ≤ 4 := List.length_take_le ..

theorem State.foundStreams_eq (s : State) : s.foundStreams = (s.directory.filter fun e => e.len ≠ 0).take 4 := by
  have hlen : (fun e : Stream => e.len != 0) = fun e => decide (e.len ≠ 0) := by
    funext e
    rw [Bool.eq_iff_iff]
    simp
  rw [State.foundStreams, hlen]
  rfl

/-- R280: the stream state INIT leaves when it found streams. -/
def StreamState.discovered (t : StreamState) (found : List Stream) : StreamState :=
  let table : Vector Stream 4 :=
    #v[found.getD 0 t.table[0], found.getD 1 t.table[1], found.getD 2 t.table[2], found.getD 3 t.table[3]]
  let sel : BitVec 8 := if t.sel.toNat ≥ found.length then 0 else t.sel
  let current := ({ t with table := table } : StreamState).entry sel.toNat
  { count := BitVec.ofNat 8 found.length, table := table, sel := sel, baseCur := current.base, lenCur := current.len }

/-- R280: with no stream found INIT ends in a terminal ERROR. -/
theorem State.adopt_of_none (s : State) :
    s.adopt [] =
      { s with fsm := { s.fsm with state := .error, initPhase := false }, ovr.valid := false, ctl.stepPending := false
               hdrValid := false, seq := { s.seq with searchCtr := 0, terminal := true }, strm := { s.strm with count := 0 }
               ev := Event.record .noStream s.ev } := rfl

theorem State.adopt_of_found (s : State) {found : List Stream} (h : found ≠ []) :
    s.adopt found =
      { s with fsm := { s.fsm with state := .newFrame, initPhase := false }, ovr.valid := false, ctl.stepPending := false
               hdrValid := false, seq := { curSector := 0, nextSector := 0, searchCtr := 0, terminal := false }
               strm := s.strm.discovered found } := if_neg h

theorem StreamState.discovered_count (t : StreamState) {found : List Stream} (h : found.length ≤ 4) :
    (t.discovered found).count.toNat = found.length := by
  show (BitVec.ofNat 8 found.length).toNat = _
  rw [BitVec.toNat_ofNat]
  omega

theorem StreamState.discovered_table (t : StreamState) {found : List Stream} {i : Nat} (hi : i < 4) (h : i < found.length) :
    found[i]? = some (t.discovered found).table[i] := by
  rw [List.getElem?_eq_getElem h]
  interval_cases i <;> exact congrArg some (List.getElem_eq_getD _)

theorem StreamState.discovered_sel_kept (t : StreamState) {found : List Stream} (h : t.sel.toNat < found.length) :
    (t.discovered found).sel = t.sel := if_neg (Nat.not_le.mpr h)

theorem StreamState.discovered_sel_first (t : StreamState) {found : List Stream} (h : found.length ≤ t.sel.toNat) :
    (t.discovered found).sel = 0 := if_pos h

theorem StreamState.discovered_sel_lt (t : StreamState) {found : List Stream} (h : found ≠ []) :
    (t.discovered found).sel.toNat < found.length := by
  rcases Nat.lt_or_ge t.sel.toNat found.length with hs | hs
  · rwa [t.discovered_sel_kept hs]
  · rw [t.discovered_sel_first hs]
    exact List.length_pos_iff.mpr h

/-- The base and length made current are those of the selected stream (log 8). -/
theorem StreamState.discovered_current (t : StreamState) {found : List Stream} (h : found ≠ []) (hlen : found.length ≤ 4) :
    found[(t.discovered found).sel.toNat]? = some { base := (t.discovered found).baseCur, len := (t.discovered found).lenCur } := by
  have hsel := t.discovered_sel_lt h
  have hlt : (t.discovered found).sel.toNat < 4 := hsel.trans_le hlen
  rw [t.discovered_table hlt hsel, ← (t.discovered found).entry_eq hlt]
  rfl

/-- Settles O28: the directory read, the wait for it, and the two ways `State.adopt` goes. -/
theorem initDiscoversStreams : Obligations.InitDiscoversStreams := by
  intro s hen hstate
  have hstep : decStep s = decInit s := by rw [decStep_enabled hen, decStateStep, hstate]
  rw [hstep]
  refine ⟨fun hbusy => if_pos hbusy, fun hbusy hphase => ?issue, fun hdir => ?mbr, fun hdir => ?other, fun hbusy hphase => ?adopt⟩
  case issue => exact ⟨_, by rw [decInit, hbusy, hphase]; rfl, rfl, rfl, rfl⟩
  case mbr => rw [s.foundStreams_eq, State.directory, hdir]
  case other => rw [s.foundStreams_eq, State.directory, hdir]
  case adopt =>
    have hadopt : decInit s = some (s.adopt s.foundStreams) := by rw [decInit, hbusy, hphase]; rfl
    have hlen := s.foundStreams_length_le
    rw [hadopt]
    generalize s.foundStreams = found at hlen
    by_cases hfound : found = []
    · subst hfound
      rw [s.adopt_of_none]
      exact ⟨_, rfl, rfl, rfl, rfl, rfl, rfl, fun _ => ⟨rfl, rfl, rfl, rfl, rfl, Event.record_irqStatus .noStream s.ev, rfl⟩,
        fun h => absurd rfl h, rfl⟩
    · rw [s.adopt_of_found hfound]
      exact ⟨_, rfl, rfl, rfl, rfl, rfl, rfl, fun h => absurd h hfound,
        fun _ => ⟨rfl, rfl, s.strm.discovered_count hlen, fun _ hi => s.strm.discovered_table hi, s.strm.discovered_sel_first,
          s.strm.discovered_sel_kept, s.strm.discovered_current hfound hlen, rfl, rfl, rfl⟩, rfl⟩

/-! ## NEW_FRAME (R281) -/

theorem StreamState.switchTo_same {t : StreamState} {k : BitVec 8} (h : k = t.sel) : t.switchTo k = t := if_pos h

theorem StreamState.switchTo_other {t : StreamState} {k : BitVec 8} (h : k ≠ t.sel) :
    t.switchTo k = { t with sel := k, baseCur := (t.entry k.toNat).base, lenCur := (t.entry k.toNat).len } := if_neg h

/-- Settles O30: the wait, the override taken, and the next sector taken. -/
theorem newFrameTakesTheOverride : Obligations.NewFrameTakesTheOverride := by
  intro s hen hstate
  have hstep : decStep s = decNewFrame s := by rw [decStep_enabled hen, decStateStep, hstate]
  rw [hstep]
  refine ⟨fun hnext => if_pos hnext, fun hnext hovr => ?override, fun hnext hovr => by rw [decNewFrame, hnext, hovr]; rfl⟩
  case override =>
    refine ⟨{ s with fsm.state := .needHeader, strm := s.strm.switchTo s.ovr.stream, ovr.valid := false
                     seq := { s.seq with curSector := s.ovr.sector, searchCtr := 0 } },
      by rw [decNewFrame, hnext, hovr]; rfl, rfl, rfl, rfl, rfl, StreamState.switchTo_same, fun hother => ?_, rfl⟩
    simp only [StreamState.switchTo_other hother]
    exact ⟨trivial, trivial, trivial, fun hlt => s.strm.entry_eq hlt⟩

/-! ## The header and audio reads, and the cursors of the image (R282, R286, R290) -/

theorem toNat_add_one (w : Word) : (w + 1).toNat = (w.toNat + 1) % 2 ^ 32 := BitVec.toNat_add w 1

theorem State.frame_eq (s : State) : s.frame = if s.decShown = true then s.disp else s.next := rfl

/-- Settles O31: what NEED_HEADER and NEED_AUDIO issue; the audio of a header that passed check 8 has a sector count of 16 bits. -/
theorem headerAndAudioReads : Obligations.HeaderAndAudioReads := by
  intro s hen hbusy
  refine ⟨fun hstate => ?header, fun k hstate hslot hwords => ?audio⟩
  case header =>
    have hstep : decStep s = decNeedHeader s := by rw [decStep_enabled hen, decStateStep, hstate]
    exact ⟨_, by rw [hstep, decNeedHeader, hbusy]; rfl, rfl, BitVec.toNat_add .., rfl, rfl, rfl⟩
  case audio =>
    have hstep : decStep s = decNeedAudio s := by rw [decStep_enabled hen, decStateStep, hstate]
    have hp := params_facts s.cfg
    rw [← s.frame_eq] at hslot
    refine ⟨_, by rw [hstep, decNeedAudio, hslot, hbusy]; rfl, rfl, ?_, ?_, ?_, rfl⟩
    · exact (toNat_add_one _).trans (by rw [BitVec.toNat_add, Nat.mod_add_mod])
    · show (BitVec.ofNat 16 (s.hdr.audioWords.toNat / 128)).toNat = _
      rw [BitVec.toNat_ofNat]
      omega
    · fin_cases k <;> rfl

/-- Settles O35: each cursor NEED_VIDEO sets; an image of at most 65535 words has a sector count of 16 bits. -/
theorem videoCursorsStart : Obligations.VideoCursorsStart := by
  intro s hen hstate hwords
  have hstep : decStep s = decNeedVideo s := by rw [decStep_enabled hen, decStateStep, hstate]
  refine ⟨_, hstep, rfl, ?sector, rfl, ?sectors, rfl, rfl, rfl, rfl, rfl, rfl⟩
  case sector =>
    exact (BitVec.toNat_add ..).trans (by rw [toNat_add_one, BitVec.toNat_ofNat, ← Nat.add_mod])
  case sectors =>
    show (BitVec.ofNat 16 ((s.hdr.imageWords.toNat + 127) / 128)).toNat = _
    rw [BitVec.toNat_ofNat]
    omega

/-! ## The next frame (R293, R294) and the recoveries (R295, R296) -/

theorem Header.linkAt_eq (h : Header) {i : Nat} (hi : i < 8) : h.linkAt i = h.link[i] := by
  rw [Header.linkAt, Vector.getElem?_eq_getElem hi, Option.getD_some]

/-- R293: the magnitude of a hold tier is 0. -/
theorem linkIndex_eq {sp : BitVec 8} {m : Nat} (d : Bool) (hm : (m : Int) = max 0 sp.toInt) : linkIndex sp d = 2 * m + d.toNat := by
  unfold linkIndex
  omega

/-- R233: a legal speed is one of -16 to 3. -/
theorem speedLegal_iff (v : Int) : speedLegal v = true ↔ -16 ≤ v ∧ v ≤ 3 := by
  simp [speedLegal]

/-- R52: what a write through `F` leaves in the two frame records. -/
theorem State.setFrame_records (s : State) (f : FrameRec → FrameRec) :
    (s.setFrame (f s.frame)).disp = (if s.decShown = true then f s.disp else s.disp)
      ∧ (s.setFrame (f s.frame)).next = (if s.decShown = true then s.next else f s.next) := by
  simp only [State.setFrame_disp, State.setFrame_next, State.frame]
  cases s.decShown <;> exact ⟨rfl, rfl⟩

/-- Settles O38: the link of the speed's magnitude and direction, present and absent. -/
theorem trickPlaySelectsTheLink : Obligations.TrickPlaySelectsTheLink := by
  intro s hen hspeed
  refine ⟨fun hstate => by rw [decStep_enabled hen, decStateStep, hstate]; rfl, fun m hm hstate => ?frameReady⟩
  case frameReady =>
    have hlegal := (speedLegal_iff _).mp hspeed
    have hlt : 2 * m + s.ctl.dir.toNat < 8 := by
      have := s.ctl.dir.toNat_lt
      omega
    have hstep : decStep s = decFrameReady s := by rw [decStep_enabled hen, decStateStep, hstate]
    obtain ⟨hdisp, hnext⟩ := s.setFrame_records fun f => { f with ready := true }
    have hlink : s.hdr.linkAt (linkIndex s.ctl.speed s.ctl.dir) = s.hdr.link[2 * m + s.ctl.dir.toNat] := by
      rw [linkIndex_eq s.ctl.dir hm, s.hdr.linkAt_eq hlt]
    simp only [hstep, decFrameReady, hlink, absentLink]
    by_cases habsent : s.hdr.link[2 * m + s.ctl.dir.toNat] = 0xFFFFFFFF
    · rw [if_pos habsent]
      exact ⟨_, hlt, rfl, fun h => absurd habsent h, fun _ => ⟨rfl, fun hd => by simp [hd], fun hd => by simp [hd]⟩,
        hdisp, hnext, rfl⟩
    · rw [if_neg habsent]
      exact ⟨_, hlt, rfl, fun _ => ⟨rfl, rfl⟩, fun h => absurd h habsent, hdisp, hnext, rfl⟩

theorem State.searchNext_toNat {s : State} (h : 0 < s.strm.lenCur.toNat) :
    s.searchNext.toNat = (s.seq.curSector.toNat + 1) % s.strm.lenCur.toNat := by
  have hne : s.strm.lenCur ≠ 0 := fun h0 => by simp [h0] at h
  have hlt := Nat.mod_lt (s.seq.curSector.toNat + 1) h
  rw [State.searchNext, if_neg hne, BitVec.toNat_ofNat, Nat.mod_eq_of_lt (hlt.trans s.strm.lenCur.isLt)]

/-- Settles O39: HIT_END's event, the search going on, and the terminal ERROR with an override and without. -/
theorem errorAndEndRecover : Obligations.ErrorAndEndRecover := by
  intro s hen
  refine ⟨fun hstate => ?hitEnd, fun hstate hterm hlen => ?search, fun hstate hterm hovr => ?override,
    fun hstate hterm hovr => ?wait⟩
  case hitEnd =>
    have hstep : decStep s = decHitEnd s := by rw [decStep_enabled hen, decStateStep, hstate]
    exact ⟨_, hstep, rfl, Event.record_irqStatus .hitEnd s.ev, Event.record_noCause .hitEnd s.ev rfl, rfl⟩
  all_goals have hstep : decStep s = decError s := by rw [decStep_enabled hen, decStateStep, hstate]
  case search => exact ⟨_, by rw [hstep, decError, hterm]; rfl, State.searchNext_toNat hlen, rfl⟩
  case override => rw [hstep, decError, hterm, hovr]; rfl
  case wait => rw [hstep, decError, hterm, hovr]; rfl

end Sys2Proof.Machine
end

section
/-! PROOFS. The rejection of a header and the completion of an image read (spec/41_decoder_fsm.md R283, R285, R288, R297;
spec/42_sg_planner.md R360). -/

namespace Sys2Proof.Machine

/-! ## The first failing check (R285) -/

open Classical in
/-- A chain of tests is a search for the first failing check when its first test fails as its check does and the rest is the search
among the later checks. -/
theorem ite_some_eq_find? {c : Prop} [Decidable c] {ok : Nat → Prop} {v n : Nat} {rest : Option Nat} (hc : c ↔ ¬ok v)
    (hrest : rest = (List.range' (v + 1) n).find? fun u => decide ¬ok u) :
    (if c then some v else rest) = (List.range' v (n + 1)).find? fun u => decide ¬ok u := by
  rw [List.range'_succ]
  by_cases hv : c
  · rw [if_pos hv, List.find?_cons_of_pos (by simpa using hc.mp hv)]
  · rw [if_neg hv, List.find?_cons_of_neg (by simpa [hc] using hv), hrest]

open Classical in
/-- R285: `validate` searches the eight checks, in their order, for one that fails. -/
theorem validate_eq_find? (p : Params) (cur : Word) (b : Nat → Byte) :
    validate p cur b = (List.range' 1 8).find? fun v => decide ¬HeaderCheck p cur b v := by
  have hrows := rowTableOk_parseHeader_iff p cur b
  unfold validate
  refine ite_some_eq_find? ?magic0 <| ite_some_eq_find? ?magic1 <| ite_some_eq_find? ?bytes <| ite_some_eq_find? ?sector <|
    ite_some_eq_find? ?size <| ite_some_eq_find? ?image <| ite_some_eq_find? ?rows <| ite_some_eq_find? ?audio rfl
  case magic0 => simp [HeaderCheck]
  case magic1 => simp [HeaderCheck]
  case bytes => simp [HeaderCheck, parseHeader]
  case sector => simp [HeaderCheck, parseHeader]
  case size => simp [HeaderCheck, parseHeader]; tauto
  case image => simp [HeaderCheck, parseHeader]; omega
  case rows => simp [← hrows]
  case audio => simp [HeaderCheck, parseHeader]; tauto

theorem validate_eq_some_iff (p : Params) (cur : Word) (b : Nat → Byte) (v : Nat) :
    validate p cur b = some v ↔
      1 ≤ v ∧ v ≤ 8 ∧ ¬HeaderCheck p cur b v ∧ ∀ u, 1 ≤ u → u < v → HeaderCheck p cur b u := by
  rw [validate_eq_find?, List.find?_range'_eq_some, List.mem_range'_1]
  simp only [decide_eq_true_eq, Bool.not_eq_true', decide_eq_false_iff_not, not_not]
  constructor
  · rintro ⟨hfails, ⟨hlo, hhi⟩, hbefore⟩
    exact ⟨hlo, by omega, hfails, hbefore⟩
  · rintro ⟨hlo, hhi, hfails, hbefore⟩
    exact ⟨hfails, ⟨hlo, by omega⟩, hbefore⟩

/-- Settles O32: the search finds no failing check, or the first one. -/
theorem firstFailingHeaderCheck : Obligations.FirstFailingHeaderCheck :=
  fun p cur b => ⟨validate_eq_none_iff p cur b, validate_eq_some_iff p cur b⟩

/-! ## The rejection (R297) -/

/-- What a rejection leaves in the event registers while the search goes on. -/
theorem State.formatError_open {s : State} (v : Nat) (h : s.seq.searchCtr.toNat + 1 < s.strm.lenCur.toNat) :
    s.formatError v =
      { s with fsm.state := .error, seq.searchCtr := s.seq.searchCtr + 1
               ev := Event.record (.format v) { s.ev with fmtErrCount := s.ev.fmtErrCount + 1 } } := by
  have hopen : s.searchExhausted = false := decide_eq_false (by omega)
  rw [State.formatError, hopen]
  rfl

/-- What it leaves with the search exhausted: the second event's cause (R500), both interrupts. -/
theorem State.formatError_exhausted {s : State} (v : Nat) (h : s.strm.lenCur.toNat ≤ s.seq.searchCtr.toNat + 1) :
    s.formatError v =
      { s with fsm.state := .error, seq := { s.seq with searchCtr := s.seq.searchCtr + 1, terminal := true }
               ev := Event.record .terminalSearch
                 (Event.record (.format v) { s.ev with fmtErrCount := s.ev.fmtErrCount + 1 }) } := by
  have hexhausted : s.searchExhausted = true := decide_eq_true h
  rw [State.formatError, hexhausted]
  rfl

/-- Settles O34: the rejection with the search open and with it exhausted. -/
theorem rejectionCountsTheSearch : Obligations.RejectionCountsTheSearch := by
  intro s v hen hstate hbusy hinvalid
  obtain ⟨-, hv, -, -⟩ := (validate_eq_some_iff ..).mp hinvalid
  have hstep : decStep s = some (s.formatError v) := by
    rw [decStep_enabled hen, decStateStep, hstate]
    simp only [decReadingHeader, hbusy, hinvalid]
    rfl
  rw [hstep]
  have hcount : (s.ev.fmtErrCount + 1).toNat = (s.ev.fmtErrCount.toNat + 1) % 2 ^ 32 := toNat_add_one _
  rcases Nat.lt_or_ge (s.seq.searchCtr.toNat + 1) s.strm.lenCur.toNat with hopen | hexhausted
  · rw [State.formatError_open v hopen]
    refine ⟨_, rfl, rfl, hcount, rfl, fun _ => ⟨rfl, rfl, ?_, fun i hi => Event.record_irqStatus _ _ i hi⟩,
      fun h => absurd hopen (by omega), rfl, rfl, rfl⟩
    exact (BitVec.toNat_ofNat ..).trans (Nat.mod_eq_of_lt (by omega))
  · rw [State.formatError_exhausted v hexhausted]
    refine ⟨_, rfl, rfl, hcount, rfl, fun h => absurd h (by omega), fun _ => ⟨rfl, rfl, rfl, fun i hi => ?_⟩, rfl, rfl, rfl⟩
    simp only [Event.record_irqStatus _ _ i hi, Event.irqBit, Bool.or_assoc]

/-! ## The completion of an image read (R288, R360) -/

/-- Rows counted one by one. -/
theorem countP_range_eq_card (n : Nat) (c : Nat → Prop) [DecidablePred c] :
    (List.range n).countP (fun r => decide (c r)) = ((Finset.range n).filter c).card :=
  List.countP_eq_length_filter

theorem State.rowsDone_eq_card (s : State) (w : Nat) :
    s.rowsDone w = ((Finset.range s.cfg.rows).filter fun r => s.hdr.roAt (r + 1) ≤ w).card :=
  countP_range_eq_card _ _

theorem State.complete_doneWords (s : State) :
    s.complete.cur.doneWords.toNat = min (128 * s.cur.fetchSec.toNat) s.cur.imgWords.toNat := by
  show (BitVec.ofNat 32 (min (128 * s.cur.fetchSec.toNat) s.cur.imgWords.toNat)).toNat = _
  rw [BitVec.toNat_ofNat]
  omega

/-- A slot index fits the 16 bits it is held in. -/
theorem toNat_ofNat_addN (p : Params) (a k : Nat) : (BitVec.ofNat 16 (addN p.rowSlots a k)).toNat = addN p.rowSlots a k := by
  have hp := params_facts p
  have := addN_lt (n := p.rowSlots) (by omega) a k
  rw [BitVec.toNat_ofNat, Nat.mod_eq_of_lt (by omega)]

theorem State.complete_validTo (s : State) :
    s.complete.win.validTo.toNat = addN s.cfg.rowSlots s.next.startSlot.toNat (s.rowsDone s.complete.cur.doneWords.toNat) := by
  rw [s.complete_doneWords]
  exact toNat_ofNat_addN ..

theorem State.afterVideo_of_open {s : State} (h : s.cur.fetchSec.toNat < s.cur.imgSectors.toNat) :
    s.afterVideo = .preppingVideo := if_pos h

theorem State.afterVideo_of_audio {s : State} (h : s.cur.imgSectors.toNat ≤ s.cur.fetchSec.toNat)
    (ha : 0 < s.hdr.audioWords.toNat) : s.afterVideo = .awaitAudioBuffer := by
  rw [State.afterVideo, if_neg (by omega), if_pos ha]

theorem State.afterVideo_of_silent {s : State} (h : s.cur.imgSectors.toNat ≤ s.cur.fetchSec.toNat)
    (ha : s.hdr.audioWords.toNat = 0) : s.afterVideo = .audioReady := by
  rw [State.afterVideo, if_neg (by omega), if_neg (by omega)]

/-- Settles O36: the wait; `Complete`, its rows counted against the words it counted; and the three ways on. -/
theorem completionCountsWholeRows : Obligations.CompletionCountsWholeRows := by
  intro s hen hstate
  have hstep : decStep s = decReadingVideo s := by rw [decStep_enabled hen, decStateStep, hstate]
  rw [hstep]
  refine ⟨fun hbusy => if_pos hbusy, fun hbusy => ?_⟩
  refine ⟨s.complete.goto s.afterVideo, s.rowsDone s.complete.cur.doneWords.toNat, by rw [decReadingVideo, hbusy]; rfl,
    s.complete_doneWords, s.rowsDone_eq_card _, s.complete_validTo, State.afterVideo_of_open, State.afterVideo_of_audio,
    State.afterVideo_of_silent, rfl⟩

end Sys2Proof.Machine
end

section
/-! PROOFS. How far a batch of `Plan` goes, and what PREPPING_VIDEO commits (spec/41_decoder_fsm.md R287;
spec/42_sg_planner.md R351 to R357). -/

namespace Sys2Proof.Machine

/-! ## The image words of the frame's sectors (R350) -/

/-- The image words of the sectors before sector `j`. -/
def State.wordsTo (s : State) (j : Nat) : Nat := min (128 * j) s.cur.imgWords.toNat

/-- A sector of the frame starts on a multiple of 128 words, and its payload goes on to where the next sector starts. -/
theorem State.wordsTo_succ {s : State} {j : Nat} (hsec : s.cur.imgSectors.toNat = (s.cur.imgWords.toNat + 127) / 128)
    (hj : j < s.cur.imgSectors.toNat) : s.wordsTo j = 128 * j ∧ s.wordsTo (j + 1) = 128 * j + s.payload j := by
  unfold State.wordsTo State.payload
  omega

theorem State.rowsBefore_eq_rowsStarting (s : State) (w : Nat) : s.rowsBefore w = rowsStarting s w :=
  countP_range_eq_card _ _

/-- R353: the planner's boundary is the do-not-overwrite boundary. -/
theorem KeepBoundary.keepOff {s : State} {keep : Nat} (h : KeepBoundary s keep) : s.keepOff = keep := by
  obtain ⟨hentry, hnone⟩ := h
  unfold State.keepOff State.rowStart
  by_cases hassigned : s.win.validFrom = s.win.plannedTo
  · rw [if_neg (not_not.mpr (congrArg _ hassigned)), hnone hassigned]
  · obtain ⟨e, he, hkeep⟩ := hentry hassigned
    rw [if_pos fun heq => hassigned (BitVec.eq_of_toNat_eq heq), hkeep, State.rowOffset, List.getD, he, Option.getD_some]

/-! ## The batch (R355) -/

/-- The variables of `Plan`'s loop with no sector taken. -/
def State.planStart (s : State) : PlanAcc :=
  { k := 0, need := 0, wo := s.cur.writeOff.toNat, rp := s.cur.rowsPlanned.toNat, frags := [] }

/-- The batch's variables when the loop ends. -/
def State.planEnd (s : State) : PlanAcc := s.planLoop s.freeWords s.freeSlots s.cfg.maxBatchSectors s.planStart

theorem State.plan_k (s : State) : s.plan.k = s.planEnd.k := rfl

theorem State.plan_wo (s : State) : s.plan.wo = s.planEnd.wo := rfl

theorem State.plan_rp (s : State) : s.plan.rp = s.planEnd.rp := rfl

/-- The batch limit, and the bounds that hold the variables of a batch in the registers it is committed to. -/
structure PlanBounded (s : State) (left : Nat) (a : PlanAcc) : Prop where
  size : a.k + left ≤ s.cfg.maxBatchSectors
  rp : 1 ≤ a.k → a.rp ≤ s.cfg.rows
  wo : 1 ≤ a.k → a.wo < s.cfg.ringWords

theorem PlanBounded.take {s : State} {left : Nat} {a : PlanAcc} (h : PlanBounded s (left + 1) a) :
    PlanBounded s left (s.planTake a) := by
  have hp := params_facts s.cfg
  have hsize := h.size
  refine ⟨?_, fun _ => s.rowsBefore_le _, fun _ => Nat.mod_lt _ (by omega)⟩
  show a.k + 1 + left ≤ _
  omega

theorem State.planEnd_bounded (s : State) : ∃ left, PlanBounded s left s.planEnd := by
  refine s.planLoop_keeps _ _ (PlanBounded s) _ _ ⟨?_, ?_, ?_⟩ (fun _ _ h _ _ _ _ => h.take)
    (fun m _ h _ _ _ _ => ⟨m, h.take⟩)
  · exact (Nat.zero_add _).le
  · exact fun h => absurd h (Nat.not_succ_le_zero 0)
  · exact fun h => absurd h (Nat.not_succ_le_zero 0)

/-- R355: what a batch takes fits, and its variables say what it takes. -/
structure BatchFits (s : State) (a : PlanAcc) : Prop where
  within : s.cur.fetchSec.toNat + a.k ≤ s.cur.imgSectors.toNat
  need : s.wordsTo s.cur.fetchSec.toNat + a.need = s.wordsTo (s.cur.fetchSec.toNat + a.k)
  wo : a.wo = (s.cur.writeOff.toNat + a.need) % s.cfg.ringWords
  rp : 1 ≤ a.k → a.rp = s.rowsBefore (s.wordsTo (s.cur.fetchSec.toNat + a.k))
  free : a.need ≤ s.freeWords
  slots : a.rp - s.cur.rowsPlanned.toNat ≤ s.freeSlots
  before : 1 ≤ a.k →
    s.cur.writeOff.toNat + (s.wordsTo (s.cur.fetchSec.toNat + a.k - 1) - s.wordsTo s.cur.fetchSec.toNat) < s.cfg.ringWords

theorem BatchFits.start {s : State} (hoff : s.cur.writeOff.toNat < s.cfg.ringWords)
    (hfetch : s.cur.fetchSec.toNat ≤ s.cur.imgSectors.toNat) : BatchFits s s.planStart where
  within := hfetch
  need := rfl
  wo := (Nat.mod_eq_of_lt hoff).symm
  rp := fun h => absurd h (Nat.not_succ_le_zero 0)
  free := Nat.zero_le _
  slots := (Nat.sub_self _).trans_le (Nat.zero_le _)
  before := fun h => absurd h (Nat.not_succ_le_zero 0)

/-- A batch that has not reached the ring's end fits still with one sector more. -/
theorem BatchFits.take {s : State} {a : PlanAcc} (hsec : s.cur.imgSectors.toNat = (s.cur.imgWords.toNat + 127) / 128)
    (h : BatchFits s a) (hopen : s.cur.writeOff.toNat + a.need < s.cfg.ringWords)
    (hne : s.cur.fetchSec.toNat + a.k ≠ s.cur.imgSectors.toNat)
    (hfree : a.need + s.payload (s.cur.fetchSec.toNat + a.k) ≤ s.freeWords)
    (hslots : s.rowsBefore (128 * (s.cur.fetchSec.toNat + a.k) + s.payload (s.cur.fetchSec.toNat + a.k))
      - s.cur.rowsPlanned.toNat ≤ s.freeSlots) : BatchFits s (s.planTake a) := by
  have hwithin := h.within
  have hneed := h.need
  have hlt : s.cur.fetchSec.toNat + a.k < s.cur.imgSectors.toNat := by omega
  obtain ⟨hthis, hnext⟩ := s.wordsTo_succ hsec hlt
  refine ⟨hlt, ?need, ?wo, fun _ => congrArg s.rowsBefore hnext.symm, hfree, hslots, fun _ => ?before⟩
  case need =>
    show _ + (a.need + _) = s.wordsTo (s.cur.fetchSec.toNat + a.k + 1)
    omega
  case wo =>
    show (a.wo + _) % _ = (_ + (a.need + _)) % _
    rw [h.wo, Nat.mod_add_mod, Nat.add_assoc]
  case before =>
    show _ + (s.wordsTo (s.cur.fetchSec.toNat + a.k) - _) < _
    omega

theorem State.planEnd_fits {s : State} (hoff : s.cur.writeOff.toNat < s.cfg.ringWords)
    (hsec : s.cur.imgSectors.toNat = (s.cur.imgWords.toNat + 127) / 128)
    (hfetch : s.cur.fetchSec.toNat ≤ s.cur.imgSectors.toNat) : BatchFits s s.planEnd := by
  -- while sectors may still be taken, the ring's end is not reached
  obtain ⟨-, h, -⟩ := s.planLoop_keeps s.freeWords s.freeSlots
    (fun left a => BatchFits s a ∧ (left ≠ 0 → s.cur.writeOff.toNat + a.need < s.cfg.ringWords)) s.cfg.maxBatchSectors s.planStart
    ⟨.start hoff hfetch, fun _ => hoff⟩
    (fun left a ⟨h, hopen⟩ hne hfree hslots hring => by
      have hopen := hopen (Nat.succ_ne_zero left)
      refine ⟨h.take hsec hopen hne hfree hslots, fun _ => ?_⟩
      rw [h.wo, Nat.mod_eq_of_lt hopen] at hring
      show _ + (a.need + _) < _
      omega)
    (fun left a ⟨h, hopen⟩ hne hfree hslots _ =>
      ⟨0, h.take hsec (hopen (Nat.succ_ne_zero left)) hne hfree hslots, fun h0 => absurd rfl h0⟩)
  exact h

/-- R355: why a batch goes no farther. -/
theorem State.planEnd_maximal {s : State} (hoff : s.cur.writeOff.toNat < s.cfg.ringWords)
    (hsec : s.cur.imgSectors.toNat = (s.cur.imgWords.toNat + 127) / 128)
    (hfetch : s.cur.fetchSec.toNat ≤ s.cur.imgSectors.toNat) :
    s.cur.fetchSec.toNat + s.planEnd.k = s.cur.imgSectors.toNat ∨ s.planEnd.k = s.cfg.maxBatchSectors
      ∨ s.freeWords < s.wordsTo (s.cur.fetchSec.toNat + s.planEnd.k + 1) - s.wordsTo s.cur.fetchSec.toNat
      ∨ s.freeSlots
          < s.rowsBefore (s.wordsTo (s.cur.fetchSec.toNat + s.planEnd.k + 1)) - s.cur.rowsPlanned.toNat
      ∨ (1 ≤ s.planEnd.k ∧ s.cfg.ringWords ≤ s.cur.writeOff.toNat
          + (s.wordsTo (s.cur.fetchSec.toNat + s.planEnd.k) - s.wordsTo s.cur.fetchSec.toNat)) := by
  have hfits := State.planEnd_fits hoff hsec hfetch
  have hwithin := hfits.within
  have hneed := hfits.need
  rcases Nat.eq_or_lt_of_le hwithin with hend | hlt
  · exact .inl hend
  · obtain ⟨hthis, hnext⟩ := s.wordsTo_succ hsec hlt
    rcases s.planLoop_stops s.freeWords s.freeSlots s.cur.writeOff.toNat s.cfg.maxBatchSectors s.planStart rfl with
      hlimit | hend | hwords | hslots | ⟨htaken, hring⟩
    · exact .inr (.inl (hlimit.trans (Nat.zero_add _)))
    · exact .inl hend
    · refine .inr (.inr (.inl (lt_of_lt_of_le hwords ?_)))
      show s.planEnd.need + s.payload (s.cur.fetchSec.toNat + s.planEnd.k) ≤ _
      omega
    · exact .inr (.inr (.inr (.inl (hnext ▸ hslots))))
    · refine .inr (.inr (.inr (.inr ⟨htaken, hring.trans_eq ?_⟩)))
      show _ + s.planEnd.need = _
      omega

/-! ## The commit (R356) -/

/-- The slot of row `r` of the frame ahead. -/
def State.rowSlot (s : State) (r : Nat) : Nat := addN s.cfg.rowSlots s.next.startSlot.toNat r

/-- A commit leaves the entry of a slot that no row of it takes. -/
theorem State.commitRows_getElem?_other {s : State} {rs : List Nat} {x : Nat} (h : ∀ r ∈ rs, x ≠ s.rowSlot r) (rt : List Word) :
    (rs.foldl s.commitRow rt)[x]? = rt[x]? := by
  induction rs generalizing rt with
  | nil => rfl
  | cons r rs ih =>
    rw [List.foldl_cons, ih (fun q hq => h q (List.mem_cons_of_mem r hq))]
    exact List.getElem?_set_ne (h r List.mem_cons_self).symm

/-- A commit writes the byte offset of each of its rows, in a slot of its own. -/
theorem State.commitRows_getElem?_row {s : State} {rs : List Nat} {r : Nat} (hr : r ∈ rs)
    (hown : ∀ q ∈ rs, s.rowSlot q = s.rowSlot r → q = r) {rt : List Word} (hlen : s.rowSlot r < rt.length) :
    (rs.foldl s.commitRow rt)[s.rowSlot r]? =
      some (BitVec.ofNat 32 (4 * addN s.cfg.ringWords s.cur.frameRingBase.toNat (s.hdr.roAt r))) := by
  induction rs generalizing rt with
  | nil => cases hr
  | cons q rs ih =>
    have hown' : ∀ p ∈ rs, s.rowSlot p = s.rowSlot r → p = r := fun p hp => hown p (List.mem_cons_of_mem q hp)
    rw [List.foldl_cons]
    by_cases hlater : r ∈ rs
    · exact ih hlater hown' (by rwa [s.commitRow_length])
    · obtain rfl : r = q := (List.mem_cons.mp hr).resolve_right hlater
      rw [State.commitRows_getElem?_other fun p hp heq => hlater (hown' p hp heq.symm ▸ hp)]
      exact List.getElem?_set_self hlen

/-- A row's byte offset is below 2^32. -/
theorem toNat_rowBytes (p : Params) (base off : Nat) :
    (BitVec.ofNat 32 (4 * addN p.ringWords base off)).toNat = 4 * ((base + off) % p.ringWords) := by
  have hp := params_facts p
  have := addN_lt (n := p.ringWords) (by omega) base off
  rw [BitVec.toNat_ofNat, Nat.mod_eq_of_lt (by omega)]
  rfl

/-- The rows of one frame have different slots. -/
theorem State.rowSlot_injective {s : State} {q r : Nat} (hq : q < s.cfg.rows) (hr : r < s.cfg.rows) (h : s.rowSlot q = s.rowSlot r) :
    q = r := by
  have hp := params_facts s.cfg
  rcases Nat.lt_trichotomy q r with hlt | heq | hgt
  · exact absurd h (addN_ne hlt (by omega))
  · exact heq
  · exact absurd h.symm (addN_ne hgt (by omega))

theorem State.commit_rt (s : State) (b : PlanAcc) :
    (s.commit b).rt = (List.range' s.cur.rowsPlanned.toNat (b.rp - s.cur.rowsPlanned.toNat)).foldl s.commitRow s.rt := rfl

/-- R356: the entry of each row the batch starts. -/
theorem State.commit_rowOffset {s : State} {b : PlanAcc} {r : Nat} (hlen : s.rt.length = s.cfg.rowSlots) (hrows : b.rp ≤ s.cfg.rows)
    (hlo : s.cur.rowsPlanned.toNat ≤ r) (hhi : r < b.rp) :
    ∃ e, (s.commit b).rt[s.rowSlot r]? = some e
      ∧ e.toNat = 4 * ((s.cur.frameRingBase.toNat + s.hdr.roAt r) % s.cfg.ringWords) := by
  have hp := params_facts s.cfg
  refine ⟨_, State.commitRows_getElem?_row (List.mem_range'_1.mpr ⟨hlo, by omega⟩) (fun q hq heq => ?_) ?_, toNat_rowBytes ..⟩
  · have hq := List.mem_range'_1.mp hq
    exact State.rowSlot_injective (by omega) (by omega) heq
  · rw [hlen]
    exact addN_lt (by omega) _ _

theorem State.commit_otherSlot {s : State} {b : PlanAcc} {x : Nat}
    (h : ∀ r, s.cur.rowsPlanned.toNat ≤ r → r < b.rp → x ≠ s.rowSlot r) : (s.commit b).rt[x]? = s.rt[x]? := by
  refine State.commitRows_getElem?_other (fun r hr => ?_) s.rt
  have hr := List.mem_range'_1.mp hr
  exact h r (by omega) (by omega)

/-! ## PREPPING_VIDEO (R287) -/

/-- Settles O42: the deferral, how far the batch goes (R355), and its commit and request (R356, R357). -/
theorem commitRecordsRowOffsets : Obligations.CommitRecordsRowOffsets := by
  intro s htable hen hstate hbusy
  have hstep : decStep s = s.planAndIssue.map fun t => t.goto .readingVideo := by
    rw [decStep_enabled hen, decStateStep, hstate]
    simp only [decPreppingVideo, hbusy]
    rfl
  obtain ⟨hentries, -⟩ := htable
  obtain ⟨left, hsize, hrows, hring⟩ := s.planEnd_bounded
  refine ⟨fun hempty => by rw [hstep, State.planAndIssue, if_pos hempty]; rfl, ?batch, fun htaken => ?commit⟩
  case batch =>
    rintro keep w0 w1 w2 hkeep hoff hsec hfetch rfl rfl rfl
    rw [s.plan_k, s.plan_wo, s.plan_rp]
    have hfits := State.planEnd_fits hoff hsec hfetch
    have hmaximal := State.planEnd_maximal hoff hsec hfetch
    have hneed : s.planEnd.need = s.wordsTo (s.cur.fetchSec.toNat + s.planEnd.k) - s.wordsTo s.cur.fetchSec.toNat := by
      have := hfits.need
      omega
    have hfree : s.freeWords = s.cfg.ringWords - 1 - distN s.cfg.ringWords keep s.cur.writeOff.toNat := by
      rw [State.freeWords, hkeep.keepOff]
    have hwo := hfits.wo
    have hwords := hfits.free
    rw [hneed] at hwo hwords
    simp only [hfree, s.rowsBefore_eq_rowsStarting] at hwords hmaximal
    exact ⟨fun htaken => (hfits.rp htaken).trans (s.rowsBefore_eq_rowsStarting _), hwo, hwords, hfits.slots, hfits.before,
      hmaximal⟩
  case commit =>
    have hp := params_facts s.cfg
    have hrp : s.plan.rp ≤ s.cfg.rows := s.plan_rp.trans_le (hrows (htaken.trans_eq s.plan_k))
    have hwo : s.plan.wo < s.cfg.ringWords := s.plan_wo.trans_lt (hring (htaken.trans_eq s.plan_k))
    have hk : s.plan.k ≤ s.cfg.maxBatchSectors := (Nat.le_add_right _ _).trans (s.plan_k ▸ hsize)
    refine ⟨((s.commit s.plan).issue s.batchLba s.plan.k s.plan.frags).goto .readingVideo,
      by rw [hstep, State.planAndIssue, if_neg (by omega)]; rfl,
      fun r => State.commit_rowOffset hentries hrp, fun x => State.commit_otherSlot, toNat_ofNat_addN ..,
      ?rows, ?off, BitVec.toNat_ofNat .., rfl, ?count, rfl, ?lba, rfl⟩
    case rows => exact (BitVec.toNat_ofNat ..).trans (Nat.mod_eq_of_lt (by omega))
    case off => exact (BitVec.toNat_ofNat ..).trans (Nat.mod_eq_of_lt (by omega))
    case count => exact (BitVec.toNat_ofNat ..).trans (Nat.mod_eq_of_lt (by omega))
    case lba =>
      show (s.strm.baseCur + s.cur.imgSector0 + s.cur.fetchSec.setWidth 32).toNat = _
      simp only [BitVec.toNat_add, BitVec.toNat_setWidth]
      omega

end Sys2Proof.Machine
end

section
/-! PROOFS. The audio states: the slot they take, and what post-processing makes of its buffer (spec/41_decoder_fsm.md R289, R291,
R292; spec/44_audio.md R450, R451, R453, R454). -/

namespace Sys2Proof.Machine

/-! ## Unity gain (R453) -/

theorem gain1_unity (x : Int) : gain1 x 255 = x := Int.mul_ediv_cancel x (by decide : (255 + 1 : Int) ≠ 0)

theorem halves_extract (w : Word) : halves (w.extractLsb' 0 16) (w.extractLsb' 16 16) = w := by
  ext j hj
  unfold halves
  by_cases h : j < 16
  · simp [h, hj]
  · simp [h, hj, show 16 + (j - 16) = j by omega, show j - 16 < 16 by omega]

theorem gainWord_unity (w : Word) : gainWord 255 w = w := by
  have hg : (255 : BitVec 8).toNat = 255 := rfl
  rw [gainWord, hg, gain1_unity, gain1_unity, BitVec.ofInt_toInt, BitVec.ofInt_toInt, halves_extract]

/-! ## The pass over sector pairs (R451), word by word -/

theorem getElem?_sectorOf (ws : List Word) (i : Nat) {r : Nat} (hr : r < 128) : (sectorOf ws i)[r]? = ws[128 * i + r]? := by
  rw [sectorOf, List.getElem?_take_of_lt hr, List.getElem?_drop]

theorem getElem?_putSector {ws x : List Word} {i : Nat} (hi : 128 * i + 128 ≤ ws.length) (hx : x.length = 128) (j : Nat) :
    (putSector ws i x)[j]? = if j / 128 = i then x[j % 128]? else ws[j]? := by
  have htake : (ws.take (128 * i)).length = 128 * i := by
    rw [List.length_take]
    omega
  rw [putSector, List.append_assoc, List.getElem?_append, htake]
  rcases Nat.lt_or_ge j (128 * i) with hlo | hlo
  · rw [if_pos hlo, List.getElem?_take_of_lt hlo, if_neg (by omega)]
  · rw [if_neg (by omega), List.getElem?_append, hx]
    by_cases hhi : j / 128 = i
    · rw [if_pos (by omega), if_pos hhi, show j - 128 * i = j % 128 by omega]
    · rw [if_neg (by omega), if_neg hhi, List.getElem?_drop, show 128 * i + 128 + (j - 128 * i - 128) = j by omega]

/-- R451: which word of a buffer of `n` sectors the pass makes word `j` of. -/
def sourceWord (rev : Bool) (n j : Nat) : Nat := if rev then 128 * n - 1 - j else j

/-- R451: what sector `i` of a buffer becomes. -/
def pairSector (rev : Bool) (g : BitVec 8) (n : Nat) (ws : List Word) (i : Nat) : List Word :=
  (if rev then (sectorOf ws (n - 1 - i)).reverse else sectorOf ws i).map (gainWord g)

theorem length_pairSector (rev : Bool) (g : BitVec 8) {n i : Nat} {ws : List Word} (hw : ws.length = 128 * n) (hi : i < n) :
    (pairSector rev g n ws i).length = 128 := by
  rw [pairSector, List.length_map]
  cases rev with
  | false => exact length_sectorOf hw hi
  | true => exact List.length_reverse.trans (length_sectorOf hw (by omega))

theorem processPair_eq (rev : Bool) (g : BitVec 8) {n i : Nat} (ws : List Word) (hi : i < n) :
    processPair rev g n ws i =
      if i = n - 1 - i then putSector ws i (pairSector rev g n ws i)
      else putSector (putSector ws i (pairSector rev g n ws i)) (n - 1 - i) (pairSector rev g n ws (n - 1 - i)) := by
  simp only [processPair, pairSector, show n - 1 - (n - 1 - i) = i by omega]

/-- What a sector of a pair becomes: the gain of the source of each of its words. -/
theorem getElem?_pairSector (rev : Bool) (g : BitVec 8) {n j : Nat} {ws : List Word} (hw : ws.length = 128 * n) (hj : j < 128 * n) :
    (pairSector rev g n ws (j / 128))[j % 128]? = (ws[sourceWord rev n j]?).map (gainWord g) := by
  have hr : j % 128 < 128 := Nat.mod_lt j (by decide)
  rw [pairSector, List.getElem?_map]
  congr 1
  cases rev with
  | false =>
    refine (getElem?_sectorOf ws _ hr).trans ?_
    rw [show 128 * (j / 128) + j % 128 = j by omega]
    rfl
  | true =>
    have hlen := length_sectorOf hw (show n - 1 - j / 128 < n by omega)
    refine (List.getElem?_reverse (hr.trans_eq hlen.symm)).trans ?_
    rw [hlen, getElem?_sectorOf ws _ (by omega), show 128 * (n - 1 - j / 128) + (128 - 1 - j % 128) = 128 * n - 1 - j by omega]
    rfl

/-- R451: the pass over one pair makes each word of its two sectors the gain of its source, and leaves the other words. -/
theorem getElem?_processPair (rev : Bool) (g : BitVec 8) {n i : Nat} {ws : List Word} (hw : ws.length = 128 * n) (hi : i < n)
    {j : Nat} (hj : j < 128 * n) :
    (processPair rev g n ws i)[j]? =
      if j / 128 = i ∨ j / 128 = n - 1 - i then (ws[sourceWord rev n j]?).map (gainWord g) else ws[j]? := by
  have hi' : n - 1 - i < n := by omega
  have hx := length_pairSector rev g hw hi
  have hy := length_pairSector rev g hw hi'
  have hput := length_putSector hw hx hi
  have hsource := getElem?_pairSector rev g hw hj
  rw [processPair_eq rev g ws hi]
  split
  next hmiddle =>
    rw [getElem?_putSector (by omega) hx]
    by_cases hlow : j / 128 = i
    · rw [if_pos hlow, if_pos (.inl hlow), ← hlow, hsource]
    · rw [if_neg hlow, if_neg (by omega)]
  next hpair =>
    rw [getElem?_putSector (by omega) hy, getElem?_putSector (by omega) hx]
    by_cases hhigh : j / 128 = n - 1 - i
    · rw [if_pos hhigh, if_pos (.inr hhigh), ← hhigh, hsource]
    · by_cases hlow : j / 128 = i
      · rw [if_neg hhigh, if_pos hlow, if_pos (.inl hlow), ← hlow, hsource]
      · rw [if_neg hhigh, if_neg hlow, if_neg (not_or.mpr ⟨hlow, hhigh⟩)]

/-- The first `m` pairs: the sectors with a distance below `m` from either end are done, the others are as they were. -/
theorem getElem?_pairs (rev : Bool) (g : BitVec 8) {n m : Nat} {ws : List Word} (hw : ws.length = 128 * n) (hm : m ≤ (n + 1) / 2) :
    ((List.range m).foldl (processPair rev g n) ws).length = 128 * n
      ∧ ∀ j < 128 * n, ((List.range m).foldl (processPair rev g n) ws)[j]? =
          if min (j / 128) (n - 1 - j / 128) < m then (ws[sourceWord rev n j]?).map (gainWord g) else ws[j]? := by
  induction m with
  | zero => exact ⟨hw, fun j _ => (if_neg (Nat.not_lt_zero _)).symm⟩
  | succ m ih =>
    obtain ⟨hlen, hdone⟩ := ih (by omega)
    rw [List.range_succ, List.foldl_append, List.foldl_cons, List.foldl_nil]
    refine ⟨length_processPair rev g hlen (by omega), fun j hj => ?_⟩
    rw [getElem?_processPair rev g hlen (by omega) hj]
    by_cases hpair : j / 128 = m ∨ j / 128 = n - 1 - m
    · have hsource : sourceWord rev n j / 128 = if rev then n - 1 - j / 128 else j / 128 := by
        cases rev <;> simp only [sourceWord, Bool.false_eq_true, if_false, if_true]
        omega
      have hlt : sourceWord rev n j < 128 * n := by
        cases rev <;> simp only [sourceWord, Bool.false_eq_true, if_false, if_true] <;> omega
      have hundone : ¬min (sourceWord rev n j / 128) (n - 1 - sourceWord rev n j / 128) < m := by
        rw [hsource]
        split <;> omega
      rw [if_pos hpair, if_pos (by omega), hdone _ hlt, if_neg hundone]
    · rw [if_neg hpair, hdone j hj]
      congr 1
      rw [eq_iff_iff]
      omega

/-- R451: what the pass makes of each word of a buffer of `n` sectors. -/
theorem getElem?_processWords (rev : Bool) (g : BitVec 8) {n j : Nat} {ws : List Word} (hw : ws.length = 128 * n) (hj : j < 128 * n) :
    (processWords rev g n ws)[j]? = (ws[sourceWord rev n j]?).map (gainWord g) := by
  unfold processWords
  split
  next hskip =>
    obtain ⟨rfl, rfl⟩ : rev = false ∧ g = 255 := by simpa using hskip
    show ws[j]? = (ws[j]?).map (gainWord 255)
    rw [funext gainWord_unity, Option.map_id']
  next =>
    obtain ⟨-, hdone⟩ := getElem?_pairs rev g hw (Nat.le_refl _)
    rw [hdone j hj, if_pos (by omega)]

/-! ## The words of a buffer (R104) -/

/-- A word is made of its four bytes. -/
theorem le32_of_bytes {f : Nat → Byte} {w : Word} (h : ∀ i < 4, f i = byteOfWord w i) : le32 f 0 = w := by
  have hw := w.isLt
  apply BitVec.eq_of_toNat_eq
  simp only [le32, Nat.zero_add, h 0 (by decide), h 1 (by decide), h 2 (by decide), h 3 (by decide), byteOfWord, BitVec.toNat_ofNat]
  omega

theorem getElem?_flatMap_wordBytes (ws : List Word) (j : Nat) {i : Nat} (hi : i < 4) :
    (ws.flatMap wordBytes)[4 * j + i]? = (ws[j]?).map fun w => byteOfWord w i := by
  induction ws generalizing j with
  | nil => rfl
  | cons w ws ih =>
    have hlen : (wordBytes w).length = 4 := rfl
    rw [List.flatMap_cons, List.getElem?_append, hlen]
    cases j with
    | zero =>
      rw [if_pos (by omega)]
      interval_cases i <;> rfl
    | succ j => rw [if_neg (by omega), show 4 * (j + 1) + i - 4 = 4 * j + i by omega, ih, List.getElem?_cons_succ]

/-- Words stored from an address on read back. -/
theorem State.bufWord_of_write {s t : State} {base j : Nat} {ws : List Word} {w : Word}
    (hmem : t.mem = Memory.write s.mem base (ws.flatMap wordBytes)) (hj : ws[j]? = some w) : t.bufWord (base + 4 * j) = w := by
  obtain ⟨hlt, -⟩ := List.getElem?_eq_some_iff.mp hj
  refine le32_of_bytes fun i hi => ?_
  rw [State.bufByte, hmem, Memory.read?_write, length_flatMap_wordBytes, if_pos (by omega),
    show base + 4 * j + i - base = 4 * j + i by omega, getElem?_flatMap_wordBytes ws j hi, hj]
  rfl

theorem State.length_bufWords (s : State) (base n : Nat) : (s.bufWords base n).length = n := by
  rw [State.bufWords, List.length_map, List.length_range]

theorem State.getElem?_bufWords (s : State) (base : Nat) {n j : Nat} (hj : j < n) :
    (s.bufWords base n)[j]? = some (s.bufWord (base + 4 * j)) := by
  rw [State.bufWords, List.getElem?_map, List.getElem?_range hj, Option.map_some]

/-! ## Post-processing a slot's buffer (R451) -/

/-- Post-processing either is skipped, playing forward at unity gain, or stores what the pass makes of the buffer. -/
theorem State.postProcess_cases {s : State} {k : Fin 2} {n : Nat} (hwords : (s.slot k).words.toNat = 128 * n) :
    (s.frame.dir = false ∧ s.ctl.volume = 255 ∧ s.postProcess k = s)
    ∨ (s.postProcess k).mem = Memory.write s.mem (audBase k)
        ((processWords s.frame.dir s.ctl.volume n (s.bufWords (audBase k) (128 * n))).flatMap wordBytes) := by
  unfold State.postProcess
  split
  next hskip =>
    obtain ⟨hdir, hvolume⟩ : s.frame.dir = false ∧ s.ctl.volume = 255 := by simpa using hskip
    exact .inl ⟨hdir, hvolume, rfl⟩
  next => exact .inr (by simp only [hwords, Nat.mul_div_cancel_left n (show 0 < 128 by decide)])

theorem State.postProcess_bufWord {s : State} {k : Fin 2} {n j : Nat} (hwords : (s.slot k).words.toNat = 128 * n) (hj : j < 128 * n) :
    (s.postProcess k).bufWord (audBase k + 4 * j) =
      gainWord s.ctl.volume (s.bufWord (audBase k + 4 * sourceWord s.frame.dir n j)) := by
  rcases State.postProcess_cases hwords with ⟨hdir, hvolume, hsame⟩ | hmem
  · rw [hsame, hdir, hvolume, gainWord_unity]
    rfl
  · have hsource : sourceWord s.frame.dir n j < 128 * n := by
      unfold sourceWord
      split <;> omega
    refine State.bufWord_of_write hmem ?_
    rw [getElem?_processWords _ _ (s.length_bufWords ..) hj, s.getElem?_bufWords _ hsource, Option.map_some]

/-- Post-processing leaves every byte outside the slot's words. -/
theorem State.postProcess_bufByte_apart {s : State} {k : Fin 2} {n a : Nat} (hwords : (s.slot k).words.toNat = 128 * n)
    (ha : a < audBase k ∨ audBase k + 512 * n ≤ a) : (s.postProcess k).bufByte a = s.bufByte a := by
  refine State.bufByte_congr_read ?_
  rcases State.postProcess_cases hwords with ⟨-, -, hsame⟩ | hmem
  · rw [hsame]
  · rw [hmem, Memory.read?_write, length_flatMap_wordBytes, length_processWords _ _ (s.length_bufWords ..), if_neg (by omega)]

/-! ## The audio states (R289, R291, R292) -/

/-- R289: the lowest Empty slot. -/
theorem State.emptySlot_of_empty {s : State} {k : Fin 2} (h : (s.slot k).state = .empty) (hlow : k = 1 → s.slot0.state ≠ .empty) :
    s.emptySlot = some k := by
  match k with
  | 0 => exact if_pos h
  | 1 => exact (if_neg (hlow rfl)).trans (if_pos h)

theorem State.emptySlot_of_none {s : State} (h0 : s.slot0.state ≠ .empty) (h1 : s.slot1.state ≠ .empty) : s.emptySlot = none := by
  rw [State.emptySlot, if_neg h0, if_neg h1]

theorem State.postProcess_slot (s : State) (j k : Fin 2) : (s.postProcess k).slot j = s.slot j := by
  rw [s.postProcess_eq k]
  rfl

/-- R292: post-process, queue, try to hand off. -/
theorem decStep_of_postProcessAudio {s : State} {k : Fin 2} (hen : s.fsm.en = true) (hstate : s.fsm.state = .postProcessAudio)
    (hslot : s.frame.aslot = some k) :
    decStep s = some ((((s.postProcess k).setSlot k { s.slot k with state := .queued }).tryHandoff k).goto .audioReady) := by
  rw [decStep_enabled hen, decStateStep, hstate]
  simp only [decPostProcessAudio, hslot, s.postProcess_slot]

/-- Settles O37: the slot taken or waited for, the read waited for, and the processed buffer, by the pass over sector pairs. -/
theorem audioStatesFillASlot : Obligations.AudioStatesFillASlot := by
  intro s hen
  simp only [← s.frame_eq]
  refine ⟨fun hstate h0 h1 => ?full, fun k hstate hempty hlow => ?await, fun hstate hbusy => ?reading, fun hstate hbusy => ?read,
    fun k q hstate hslot hq => hq ▸ decStep_of_postProcessAudio hen hstate hslot, fun k n hstate hslot hwords => ?processed⟩
  case full =>
    rw [decStep_enabled hen, decStateStep, hstate]
    simp only [decAwaitAudioBuffer, State.emptySlot_of_none h0 h1, Option.map_none]
  case await =>
    have hstep : decStep s = decAwaitAudioBuffer s := by rw [decStep_enabled hen, decStateStep, hstate]
    rw [hstep, decAwaitAudioBuffer, State.emptySlot_of_empty hempty hlow]
    obtain ⟨hdisp, hnext⟩ := s.setFrame_records fun f => { f with aslot := some k }
    exact ⟨_, rfl, rfl, s.setSlot_slot k _, s.setSlot_slot_other k _, hdisp, hnext, rfl⟩
  case reading =>
    rw [decStep_enabled hen, decStateStep, hstate]
    exact if_pos hbusy
  case read =>
    rw [decStep_enabled hen, decStateStep, hstate]
    exact if_neg (by simp [hbusy])
  case processed =>
    obtain ⟨slot0, slot1, emitted, hhandoff⟩ :=
      ((s.postProcess k).setSlot k { s.slot k with state := .queued }).tryHandoff_eq k
    rw [decStep_of_postProcessAudio hen hstate hslot, hhandoff]
    refine ⟨_, rfl, fun j hj => ?_, fun a ha => ?_, ?_⟩
    · exact (State.bufWord_congr rfl _).trans (State.postProcess_bufWord hwords hj)
    · exact (State.bufByte_congr rfl _).trans (State.postProcess_bufByte_apart hwords ha)
    · rw [s.postProcess_eq k]
      rfl

end Sys2Proof.Machine
end

section
/-! PROOFS. The fragments of a batch: which ring words its sectors fill and in what order, and that those words are free
(spec/42_sg_planner.md R353, R355, R361; spec/30_encoding.md R171). -/

namespace Sys2Proof.Machine

/-! ## Fragments in RING (R170) -/

theorem ringFrag_dest {w : Nat} (words : Nat) (hw : w ≤ 4194304) : (ringFrag w words).dest.toNat = ringBase + 4 * w := by
  have hbase : ringBase = 0x1000000 := rfl
  refine (BitVec.toNat_ofNat ..).trans (Nat.mod_eq_of_lt ?_)
  omega

theorem Frag.inRing_iff (p : Params) (f : Frag) :
    f.inRing p = true ↔ ringBase ≤ f.dest.toNat ∧ f.dest.toNat < ringBase + 4 * p.ringWords := by
  simp [Frag.inRing]

theorem ringFrag_inRing {p : Params} {w : Nat} (words : Nat) (hw : w < p.ringWords) : (ringFrag w words).inRing p = true := by
  have hp := params_facts p
  rw [Frag.inRing_iff, ringFrag_dest _ (by omega)]
  omega

/-- RING ends far below `DISCARD`. -/
theorem Frag.dest_ne_discard {p : Params} {f : Frag} (h : f.inRing p = true) : f.dest ≠ discard := by
  have hp := params_facts p
  have hbase : ringBase = 0x1000000 := rfl
  obtain ⟨-, hlt⟩ := (Frag.inRing_iff p f).mp h
  intro heq
  have hdiscard : f.dest.toNat = 0xFFFFFFFF := congrArg BitVec.toNat heq
  omega

/-! ## Where the words of a request go (R112) -/

theorem placesOf_cons (f : Frag) (fs : List Frag) : placesOf (f :: fs) = placesOf [f] ++ placesOf fs := by
  simp [placesOf]

theorem placesOf_append (fs gs : List Frag) : placesOf (fs ++ gs) = placesOf fs ++ placesOf gs := List.flatMap_append

theorem placesOf_kept {f : Frag} (h : f.dest ≠ discard) :
    placesOf [f] = (List.range f.words).map fun i => some (f.dest.toNat + 4 * i) := by
  simp [placesOf, h]

theorem placesOf_discarded (n : Nat) : placesOf [{ dest := discard, words := n }] = List.replicate n none := by
  simp [placesOf]

/-- Word `i` of a fragment that is not discarded goes to one of the request's places. -/
theorem mem_placesOf {fs : List Frag} {f : Frag} {i : Nat} (hf : f ∈ fs) (hd : f.dest ≠ discard) (hi : i < f.words) :
    some (f.dest.toNat + 4 * i) ∈ placesOf fs :=
  List.mem_flatMap.mpr ⟨f, hf, List.mem_map.mpr ⟨i, List.mem_range.mpr hi, if_neg hd⟩⟩

/-! ## Merging (R355) -/

/-- `merge` joins `f` and the `g` after it. -/
def Frag.Joins (p : Params) (f g : Frag) : Prop :=
  f.inRing p = true ∧ g.inRing p = true ∧ f.dest.toNat + 4 * f.words = g.dest.toNat

section
variable {p : Params} {f g : Frag} {fs gs : List Frag}

theorem mergeFrags_cons_of_nil (h : mergeFrags p fs = []) : mergeFrags p (f :: fs) = [f] := by
  simp [mergeFrags, h]

theorem mergeFrags_cons_of_joins (h : mergeFrags p fs = g :: gs) (hj : f.Joins p g) :
    mergeFrags p (f :: fs) = { dest := f.dest, words := f.words + g.words } :: gs := by
  obtain ⟨hf, hg, hend⟩ := hj
  simp [mergeFrags, h, hf, hg, hend]

theorem mergeFrags_cons_of_apart (h : mergeFrags p fs = g :: gs) (hj : ¬f.Joins p g) :
    mergeFrags p (f :: fs) = f :: g :: gs := by
  rw [mergeFrags, h]
  refine if_neg fun hc => hj ?_
  simpa [Frag.Joins, and_assoc] using hc

/-- Two joined fragments hold the words of both, in order. -/
theorem placesOf_joined (hj : f.Joins p g) :
    placesOf [{ dest := f.dest, words := f.words + g.words }] = placesOf [f] ++ placesOf [g] := by
  obtain ⟨hf, hg, hend⟩ := hj
  have hfd := Frag.dest_ne_discard hf
  rw [placesOf_kept (f := ⟨f.dest, f.words + g.words⟩) hfd, placesOf_kept hfd, placesOf_kept (Frag.dest_ne_discard hg),
    List.range_add, List.map_append, List.map_map, ← hend]
  simp [Function.comp_def, Nat.mul_add, Nat.add_assoc]

/-- Merging moves no word. -/
theorem placesOf_mergeFrags (p : Params) (fs : List Frag) : placesOf (mergeFrags p fs) = placesOf fs := by
  induction fs with
  | nil => rfl
  | cons f fs ih =>
    rw [placesOf_cons f fs, ← ih]
    cases hrest : mergeFrags p fs with
    | nil => rw [mergeFrags_cons_of_nil hrest]; exact (List.append_nil _).symm
    | cons g gs =>
      by_cases hj : f.Joins p g
      · rw [mergeFrags_cons_of_joins hrest hj, placesOf_cons, placesOf_joined hj, placesOf_cons g gs, List.append_assoc]
      · rw [mergeFrags_cons_of_apart hrest hj, placesOf_cons]

theorem ringFrag_joins_iff {w : Nat} (n : Nat) (hw : w < p.ringWords) :
    (ringFrag w n).Joins p g ↔ g.inRing p = true ∧ ringBase + 4 * (w + n) = g.dest.toNat := by
  have hp := params_facts p
  rw [Frag.Joins, ringFrag_dest _ (by omega), Nat.mul_add, Nat.add_assoc]
  exact and_iff_right (ringFrag_inRing n hw)

/-- Two fragments in RING, the second right after the first, merge as one. -/
theorem mergeFrags_ringFrag_ringFrag {w a : Nat} (hw : w + a < p.ringWords) (b : Nat) (fs : List Frag) :
    mergeFrags p (ringFrag w a :: ringFrag (w + a) b :: fs) = mergeFrags p (ringFrag w (a + b) :: fs) := by
  have hp := params_facts p
  have hwlt : w < p.ringWords := by omega
  have hjoin (n : Nat) : (ringFrag w a).Joins p (ringFrag (w + a) n) :=
    (ringFrag_joins_iff a hwlt).mpr ⟨ringFrag_inRing n hw, (ringFrag_dest n (by omega)).symm⟩
  cases hrest : mergeFrags p fs with
  | nil => rw [mergeFrags_cons_of_joins (mergeFrags_cons_of_nil hrest) (hjoin b), mergeFrags_cons_of_nil hrest]; rfl
  | cons g gs =>
    have hiff : (ringFrag (w + a) b).Joins p g ↔ (ringFrag w (a + b)).Joins p g := by
      rw [ringFrag_joins_iff b hw, ringFrag_joins_iff _ hwlt, Nat.add_assoc]
    by_cases hj : (ringFrag (w + a) b).Joins p g
    · rw [mergeFrags_cons_of_joins (mergeFrags_cons_of_joins hrest hj) (hjoin _), mergeFrags_cons_of_joins hrest (hiff.mp hj)]
      simp [ringFrag, Nat.add_assoc]
    · rw [mergeFrags_cons_of_joins (mergeFrags_cons_of_apart hrest hj) (hjoin b),
        mergeFrags_cons_of_apart hrest (mt hiff.mpr hj)]
      rfl

end

/-! ## A run of ring words, with padding after it -/

/-- The fragments of `n` words from ring word `w` on, split at the ring's end, and of `pad` discarded words after them. -/
def runFrags (rw w n pad : Nat) : List Frag :=
  (if w + n ≤ rw then [ringFrag w n] else [ringFrag w (rw - w), ringFrag 0 (n - (rw - w))])
    ++ (if 0 < pad then [{ dest := discard, words := pad }] else [])

theorem sectorFrags_eq (rw w n : Nat) : sectorFrags rw w n = runFrags rw w n (128 - n) := by
  simp only [sectorFrags, runFrags, Nat.sub_pos_iff_lt]

section
variable {p : Params} {w n pad : Nat}

theorem placesOf_ringFrag (hend : w + n ≤ p.ringWords) (hw : w < p.ringWords) :
    placesOf [ringFrag w n] = (List.range n).map fun i => some (ringBase + 4 * ((w + i) % p.ringWords)) := by
  have hp := params_facts p
  rw [placesOf_kept (Frag.dest_ne_discard (ringFrag_inRing n hw)), ringFrag_dest _ (by omega)]
  refine List.map_congr_left fun i hi => ?_
  have hi : i < n := List.mem_range.mp hi
  rw [Nat.mod_eq_of_lt (by omega), Nat.mul_add, Nat.add_assoc]

/-- The words of a run go to the ring words from `w` on, the padding nowhere. -/
theorem placesOf_runFrags (pad : Nat) (hw : w < p.ringWords) (hn : n ≤ p.ringWords) :
    placesOf (runFrags p.ringWords w n pad)
      = ((List.range n).map fun i => some (ringBase + 4 * ((w + i) % p.ringWords))) ++ List.replicate pad none := by
  rw [runFrags, placesOf_append]
  congr 1
  · split
    next hend => exact placesOf_ringFrag hend hw
    next hend =>
      obtain ⟨m, rfl⟩ : ∃ m, n = (p.ringWords - w) + m := ⟨n - (p.ringWords - w), by omega⟩
      have hwrap (i : Nat) : (w + (p.ringWords - w + i)) % p.ringWords = (0 + i) % p.ringWords := by
        rw [← Nat.add_assoc, Nat.add_sub_cancel' hw.le, Nat.add_mod_left, Nat.zero_add]
      rw [Nat.add_sub_cancel_left, placesOf_cons, placesOf_ringFrag (p := p) (by omega) hw,
        placesOf_ringFrag (p := p) (by omega) (by omega),
        List.range_add, List.map_append, List.map_map]
      simp only [Function.comp_def, hwrap]
  · split
    next => exact placesOf_discarded pad
    next hnone => rw [Nat.eq_zero_of_not_pos hnone]; rfl

theorem sum_words_runFrags (rw w n pad : Nat) : ((runFrags rw w n pad).map (·.words)).sum = n + pad := by
  unfold runFrags
  split <;> split <;> simp [ringFrag] <;> omega

theorem length_runFrags (rw w n pad : Nat) : (runFrags rw w n pad).length ≤ 3 := by
  unfold runFrags
  split <;> split <;> simp

theorem ringFrag_inside (hw : w < p.ringWords) (hend : w + n ≤ p.ringWords) :
    ringBase ≤ (ringFrag w n).dest.toNat ∧ (ringFrag w n).dest.toNat % 4 = 0
      ∧ (ringFrag w n).dest.toNat + 4 * (ringFrag w n).words ≤ ringBase + 4 * p.ringWords := by
  have hp := params_facts p
  have hbase : ringBase = 0x1000000 := rfl
  have hwords : (ringFrag w n).words = n := rfl
  rw [ringFrag_dest _ (by omega)]
  omega

/-- The fragments of a run are not empty, and those in RING lie inside it. -/
theorem runFrags_inside {f : Frag} (hw : w < p.ringWords) (hpos : 1 ≤ n) (hn : n ≤ p.ringWords)
    (hf : f ∈ runFrags p.ringWords w n pad) :
    1 ≤ f.words ∧ (f.dest = discard ∨
      ringBase ≤ f.dest.toNat ∧ f.dest.toNat % 4 = 0 ∧ f.dest.toNat + 4 * f.words ≤ ringBase + 4 * p.ringWords) := by
  rcases List.mem_append.mp hf with hf | hf
  · split at hf
    next hend =>
      obtain rfl := List.mem_singleton.mp hf
      exact ⟨hpos, .inr (ringFrag_inside hw hend)⟩
    next hend =>
      rcases List.mem_cons.mp hf with rfl | hf
      · exact ⟨(by omega : 1 ≤ p.ringWords - w), .inr (ringFrag_inside hw (by omega))⟩
      · obtain rfl := List.mem_singleton.mp hf
        exact ⟨(by omega : 1 ≤ n - (p.ringWords - w)), .inr (ringFrag_inside (by omega) (by omega))⟩
  · split at hf
    next hpad =>
      obtain rfl := List.mem_singleton.mp hf
      exact ⟨hpad, .inl rfl⟩
    next => cases hf

theorem discard_not_joined (f : Frag) (n : Nat) : ¬f.Joins p ⟨discard, n⟩ := fun ⟨_, hg, _⟩ => Frag.dest_ne_discard hg rfl

/-- The fragments of a run are merged. -/
theorem mergeFrags_runFrags (pad : Nat) (hw : w < p.ringWords) :
    mergeFrags p (runFrags p.ringWords w n pad) = runFrags p.ringWords w n pad := by
  have hp := params_facts p
  have hwrap (m : Nat) : ¬(ringFrag w (p.ringWords - w)).Joins p (ringFrag 0 m) := by
    rw [ringFrag_joins_iff _ hw, ringFrag_dest m (Nat.zero_le _)]
    omega
  have hlast (f : Frag) : mergeFrags p [f] = [f] := mergeFrags_cons_of_nil rfl
  have hpadded (f : Frag) : mergeFrags p [f, ⟨discard, pad⟩] = [f, ⟨discard, pad⟩] :=
    mergeFrags_cons_of_apart (hlast _) (discard_not_joined f pad)
  unfold runFrags
  split <;> split
  · exact hpadded _
  · exact hlast _
  · exact mergeFrags_cons_of_apart (hpadded _) (hwrap _)
  · exact mergeFrags_cons_of_apart (hlast _) (hwrap _)

/-- A run that stops before the ring's end merges with the run right after it. -/
theorem mergeFrags_runFrags_runFrags {a : Nat} (hw : w + a < p.ringWords) (n pad : Nat) (fs : List Frag) :
    mergeFrags p (runFrags p.ringWords w a 0 ++ (runFrags p.ringWords (w + a) n pad ++ fs))
      = mergeFrags p (runFrags p.ringWords w (a + n) pad ++ fs) := by
  have hfirst : runFrags p.ringWords w a 0 = [ringFrag w a] := by simp [runFrags, hw.le]
  rw [hfirst]
  by_cases hend : w + a + n ≤ p.ringWords
  · simp only [runFrags, if_pos hend, if_pos ((Nat.add_assoc w a n).symm.trans_le hend), List.singleton_append]
    exact mergeFrags_ringFrag_ringFrag hw n _
  · have hsplit : p.ringWords - w = a + (p.ringWords - (w + a)) := by omega
    have hrest : a + n - (p.ringWords - w) = n - (p.ringWords - (w + a)) := by omega
    simp only [runFrags, if_neg hend, if_neg (fun h => hend ((Nat.add_assoc w a n).trans_le h)), hrest, List.append_assoc,
      List.cons_append]
    rw [hsplit]
    exact mergeFrags_ringFrag_ringFrag hw _ _

end

/-! ## The fragments of a batch (R355) -/

theorem State.payload_le (s : State) (j : Nat) : s.payload j ≤ 128 := by
  unfold State.payload
  omega

/-- What holds of an empty batch, and is kept by every sector that `Plan` takes inside the frame while the ring's end is not reached,
holds of the batch. -/
theorem State.planEnd_keeps {s : State} (hoff : s.cur.writeOff.toNat < s.cfg.ringWords)
    (hsec : s.cur.imgSectors.toNat = (s.cur.imgWords.toNat + 127) / 128)
    (hfetch : s.cur.fetchSec.toNat ≤ s.cur.imgSectors.toNat) (P : PlanAcc → Prop) (hstart : P s.planStart)
    (htake : ∀ a, BatchFits s a → s.cur.writeOff.toNat + a.need < s.cfg.ringWords →
      s.cur.fetchSec.toNat + a.k < s.cur.imgSectors.toNat → P a → P (s.planTake a)) : P s.planEnd := by
  obtain ⟨-, -, -, h⟩ := s.planLoop_keeps s.freeWords s.freeSlots
    (fun left a => BatchFits s a ∧ (left ≠ 0 → s.cur.writeOff.toNat + a.need < s.cfg.ringWords) ∧ P a)
    s.cfg.maxBatchSectors s.planStart ⟨.start hoff hfetch, fun _ => hoff, hstart⟩
    (fun left a ⟨hfits, hopen, h⟩ hne hfree hslots hring => by
      have hopen := hopen (Nat.succ_ne_zero left)
      refine ⟨hfits.take hsec hopen hne hfree hslots, fun _ => ?_, htake a hfits hopen (hfits.within.lt_of_ne hne) h⟩
      rw [hfits.wo, Nat.mod_eq_of_lt hopen] at hring
      show _ + (a.need + _) < _
      omega)
    (fun left a ⟨hfits, hopen, h⟩ hne hfree hslots _ => by
      have hopen := hopen (Nat.succ_ne_zero left)
      exact ⟨0, hfits.take hsec hopen hne hfree hslots, fun h0 => absurd rfl h0,
        htake a hfits hopen (hfits.within.lt_of_ne hne) h⟩)
  exact h

/-- The fragments of the sectors taken merge, whatever comes after them, as one run from the write offset on, the words of the
sectors that are no image words being its padding. -/
structure BatchIsRun (s : State) (a : PlanAcc) : Prop where
  empty : a.k = 0 → a.frags = []
  run : 1 ≤ a.k → ∀ gs, mergeFrags s.cfg (a.frags ++ gs)
    = mergeFrags s.cfg (runFrags s.cfg.ringWords s.cur.writeOff.toNat a.need (128 * a.k - a.need) ++ gs)

/-- All sectors before an open one are full, so a batch that goes on has no padding yet. -/
theorem BatchFits.need_of_open {s : State} {a : PlanAcc} (h : BatchFits s a)
    (hsec : s.cur.imgSectors.toNat = (s.cur.imgWords.toNat + 127) / 128)
    (hlt : s.cur.fetchSec.toNat + a.k < s.cur.imgSectors.toNat) : a.need = 128 * a.k := by
  have hneed := h.need
  unfold State.wordsTo at hneed
  omega

theorem BatchIsRun.take {s : State} {a : PlanAcc} (hsec : s.cur.imgSectors.toNat = (s.cur.imgWords.toNat + 127) / 128)
    (hfits : BatchFits s a) (hopen : s.cur.writeOff.toNat + a.need < s.cfg.ringWords)
    (hlt : s.cur.fetchSec.toNat + a.k < s.cur.imgSectors.toNat) (h : BatchIsRun s a) : BatchIsRun s (s.planTake a) := by
  refine ⟨fun h0 => absurd h0 (Nat.succ_ne_zero a.k), fun _ gs => ?_⟩
  have hneed := hfits.need_of_open hsec hlt
  have hpay := s.payload_le (s.cur.fetchSec.toNat + a.k)
  have hwo : a.wo = s.cur.writeOff.toNat + a.need := hfits.wo.trans (Nat.mod_eq_of_lt hopen)
  simp only [State.planTake, sectorFrags_eq, hwo, List.append_assoc]
  generalize s.payload (s.cur.fetchSec.toNat + a.k) = n at *
  have hpad : 128 * (a.k + 1) - (a.need + n) = 128 - n := by omega
  rw [hpad]
  rcases Nat.eq_zero_or_pos a.k with hk | hk
  · have hzero : a.need = 0 := by omega
    rw [h.empty hk, hzero, Nat.add_zero, Nat.zero_add, List.nil_append]
  · have hfull : 128 * a.k - a.need = 0 := by omega
    rw [h.run hk, hfull]
    exact mergeFrags_runFrags_runFrags hopen n _ gs

/-- The request of a batch is one run of ring words from the write offset on, and its padding. -/
theorem State.plan_frags {s : State} (hoff : s.cur.writeOff.toNat < s.cfg.ringWords)
    (hsec : s.cur.imgSectors.toNat = (s.cur.imgWords.toNat + 127) / 128)
    (hfetch : s.cur.fetchSec.toNat ≤ s.cur.imgSectors.toNat) :
    (s.planEnd.k = 0 → s.plan.frags = []) ∧ (1 ≤ s.planEnd.k → s.plan.frags
      = runFrags s.cfg.ringWords s.cur.writeOff.toNat s.planEnd.need (128 * s.planEnd.k - s.planEnd.need)) := by
  have hmerged : s.plan.frags = mergeFrags s.cfg s.planEnd.frags := rfl
  have hrun : BatchIsRun s s.planEnd := State.planEnd_keeps hoff hsec hfetch _
    ⟨fun _ => rfl, fun h => absurd h (Nat.not_succ_le_zero 0)⟩ fun _ hfits hopen hlt h => h.take hsec hfits hopen hlt
  refine ⟨fun hk => ?_, fun hk => ?_⟩
  · rw [hmerged, hrun.empty hk]
    rfl
  · have hall := hrun.run hk []
    rw [List.append_nil, List.append_nil] at hall
    rw [hmerged, hall, mergeFrags_runFrags _ hoff]

/-- Settles O40: the batch is one run of ring words and its padding (`State.plan_frags`). -/
theorem planIsWellFormed : Obligations.PlanIsWellFormed := by
  intro s hoff hsec hfetch
  have hp := params_facts s.cfg
  have hfits := State.planEnd_fits hoff hsec hfetch
  obtain ⟨left, hsize, -, -⟩ := s.planEnd_bounded
  obtain ⟨hempty, hrun⟩ := State.plan_frags hoff hsec hfetch
  rw [s.plan_k]
  refine ⟨by omega, hfits.within, ?_⟩
  rcases Nat.eq_zero_or_pos s.planEnd.k with hk | hk
  · rw [hempty hk, hk]
    refine ⟨rfl, Nat.zero_le _, ?_, fun f hf => by cases hf⟩
    rintro n rfl
    rw [Nat.add_zero, Nat.sub_self]
    rfl
  · have hneed := hfits.need
    have hwithin := hfits.within
    have hfree := hfits.free
    unfold State.freeWords at hfree
    unfold State.wordsTo at hneed
    rw [hrun hk]
    refine ⟨(sum_words_runFrags ..).trans (by omega), length_runFrags .., ?_,
      fun f hf => runFrags_inside hoff (by omega) (by omega) hf⟩
    intro n hn
    obtain rfl : n = s.planEnd.need := by omega
    exact placesOf_runFrags _ hoff (by omega)

/-! ## The words of a batch are free (R353, R361) -/

/-- The words taken are free ones, and their places count from the write offset. -/
structure BatchInFree (s : State) (a : PlanAcc) : Prop where
  wo : a.wo = addN s.cfg.ringWords s.cur.writeOff.toNat a.need
  free : a.need ≤ s.freeWords
  places : ∀ x, some x ∈ placesOf a.frags →
    ∃ d < a.need, x = ringBase + 4 * addN s.cfg.ringWords s.cur.writeOff.toNat d

theorem BatchInFree.take {s : State} {a : PlanAcc} (h : BatchInFree s a)
    (hfree : a.need + s.payload (s.cur.fetchSec.toNat + a.k) ≤ s.freeWords) : BatchInFree s (s.planTake a) := by
  have hp := params_facts s.cfg
  have hpay := s.payload_le (s.cur.fetchSec.toNat + a.k)
  have hwo := h.wo
  refine ⟨?_, hfree, fun x hx => ?_⟩
  · show addN _ a.wo _ = _
    rw [hwo, addN_addN]
    rfl
  · have hlt : a.wo < s.cfg.ringWords := hwo ▸ addN_lt (by omega) _ _
    simp only [State.planTake, sectorFrags_eq, placesOf_append, placesOf_runFrags _ hlt (hpay.trans (by omega))] at hx ⊢
    rcases List.mem_append.mp hx with hx | hx
    · obtain ⟨d, hd, rfl⟩ := h.places x hx
      exact ⟨d, by omega, rfl⟩
    · obtain ⟨i, hi, rfl⟩ : ∃ i < s.payload (s.cur.fetchSec.toNat + a.k), ringBase + 4 * addN s.cfg.ringWords a.wo i = x := by
        simpa [addN] using hx
      exact ⟨a.need + i, by omega, by rw [hwo, addN_addN]⟩

/-- R353: a word of a batch lies fewer words past the write offset than there are free ones. -/
theorem State.plan_word_free {s : State} {f : Frag} {i : Nat} (hoff : s.cur.writeOff.toNat < s.cfg.ringWords)
    (hf : f ∈ s.plan.frags) (hd : f.dest ≠ discard) (hi : i < f.words) :
    ∃ d < s.freeWords, f.dest.toNat + 4 * i = ringBase + 4 * addN s.cfg.ringWords s.cur.writeOff.toNat d := by
  obtain ⟨-, -, hfree, hplaces⟩ := s.planLoop_keeps s.freeWords s.freeSlots (fun _ => BatchInFree s) s.cfg.maxBatchSectors
    s.planStart ⟨(addN_zero hoff).symm, Nat.zero_le _, fun x hx => by cases hx⟩
    (fun _ _ h _ hfits _ _ => h.take hfits) (fun m _ h _ hfits _ _ => ⟨m, h.take hfits⟩)
  have hplace : some (f.dest.toNat + 4 * i) ∈ placesOf s.planEnd.frags :=
    placesOf_mergeFrags s.cfg s.planEnd.frags ▸ mem_placesOf hf hd hi
  obtain ⟨d, hlt, hx⟩ := hplaces _ hplace
  exact ⟨d, hlt.trans_le hfree, hx⟩

/-- R361: the rows of the assigned slots end where the free words begin. -/
theorem SyncInv.freeWord_past_row {s : State} {d j : Nat} (h : SyncInv s) (hd : d < s.freeWords) (hj : j < s.slotsAssigned) :
    distN s.cfg.ringWords (s.startOf j) (s.startOf (j + 1))
      ≤ distN s.cfg.ringWords (s.startOf j) (addN s.cfg.ringWords s.cur.writeOff.toNat d) := by
  have hfree : s.freeWords = s.cfg.ringWords - 1 - s.depthOf s.slotsAssigned := by
    rw [State.depthOf, h.indices.startOf_assigned, State.freeWords]
  have hnext : s.depthOf j ≤ s.depthOf (j + 1) := h.depthOf_mono (Nat.le_succ j) hj
  have hlast : s.depthOf (j + 1) ≤ s.depthOf s.slotsAssigned := h.depthOf_mono hj le_rfl
  rw [← h.indices.startOf_assigned, h.startOf_eq le_rfl, h.startOf_eq hj, h.startOf_eq hj.le, addN_addN,
    distN_addN hnext (by omega), distN_addN (by omega) (by omega)]
  omega

/-- Settles O41: a word of a batch is a free one (`State.plan_word_free`), and those come after the assigned rows. -/
theorem planWritesOnlyFreeWords : Obligations.PlanWritesOnlyFreeWords := by
  constructor
  · intro s keep hkeep hoff f hf hd i hi
    obtain ⟨d, hlt, hx⟩ := State.plan_word_free hoff hf hd hi
    rw [State.freeWords, hkeep.keepOff] at hlt
    exact ⟨_, hx, addN_lt (by omega) _ _, (distN_base hoff (by omega)).trans_lt hlt⟩
  · intro s h f hf hd i hi
    obtain ⟨d, hlt, hx⟩ := State.plan_word_free h.cursors.off_lt hf hd hi
    exact ⟨_, hx, addN_lt (Nat.zero_lt_of_lt h.cursors.off_lt) _ _, fun j hj => h.freeWord_past_row hlt hj⟩

end Sys2Proof.Machine
end

section
/-! PROOFS. The display port: the queries, `d.advance` with `Release`, and the tick that counts down, flips or first-shows
(spec/43_display_sync.md R400 to R412). -/

namespace Sys2Proof.Machine

/-! ## The queries (R401, R402) -/

theorem rowOk_of_hidden {s : State} {t : Nat} (h : ¬RowVisible s t) : s.rowOk t = false :=
  Bool.eq_false_iff.mpr (mt (s.rowOk_iff t).mp h)

theorem exec_dQvalid_of_hidden {s : State} {t : Half} (h : ¬RowVisible s t.toNat) :
    exec (.dQvalid t) s = .next (s.respond 0) := by
  rw [exec, execDQvalid, rowOf, rowOk_of_hidden h]
  rfl

theorem exec_dQoffset_of_hidden {s : State} {t : Half} (h : ¬RowVisible s t.toNat) :
    exec (.dQoffset t) s = .next (s.respond 0) := by
  rw [exec, execDQoffset, rowOf, rowOk_of_hidden h]
  rfl

/-- Settles O15: each query is a response, with the valid bit when the row is visible and 0 when it is not. -/
theorem queriesAnswerAndChangeNothing : Obligations.QueriesAnswerAndChangeNothing := by
  intro s t
  by_cases h : RowVisible s t.toNat
  · exact ⟨⟨_, exec_dQvalid_of_visible h, fun _ => rfl, fun hn => absurd h hn, rfl, fun _ => rfl⟩,
      ⟨_, exec_dQoffset_of_visible h, fun _ => rfl, fun hn => absurd h hn, rfl, fun _ => rfl⟩⟩
  · exact ⟨⟨_, exec_dQvalid_of_hidden h, fun hv => absurd hv h, fun _ => rfl, rfl, fun _ => rfl⟩,
      ⟨_, exec_dQoffset_of_hidden h, fun hv => absurd hv h, fun _ => rfl, rfl, fun _ => rfl⟩⟩

/-! ## `Release` (R405) -/

/-- `Release` takes the slot of the lowest consumer position where that is farther from `display_start`. -/
theorem State.release_of_farther {s : State}
    (h : distN s.cfg.rowSlots s.win.displayStart.toNat s.win.validFrom.toNat
      < distN s.cfg.rowSlots s.win.displayStart.toNat s.releaseSlot) :
    s.release.win.validFrom.toNat = s.releaseSlot := by
  rw [State.release, if_pos h]
  exact toNat_ofNat_addN ..

theorem State.release_of_not_farther {s : State}
    (h : distN s.cfg.rowSlots s.win.displayStart.toNat s.releaseSlot
      ≤ distN s.cfg.rowSlots s.win.displayStart.toNat s.win.validFrom.toNat) : s.release = s := by
  rw [State.release, if_neg (Nat.not_lt.mpr h)]

/-- Settles O18: the candidate is as many rows past `display_start` as the lowest position says. -/
theorem releaseMovesForwardOnly : Obligations.ReleaseMovesForwardOnly := by
  intro s hstart _ hpos
  have hcand : distN s.cfg.rowSlots s.win.displayStart.toNat s.releaseSlot = min s.dsp.pos0.toNat s.dsp.pos1.toNat :=
    distN_base hstart hpos
  refine ⟨?_, s.release_eq⟩
  rw [← hcand]
  rcases Nat.lt_or_ge (distN s.cfg.rowSlots s.win.displayStart.toNat s.win.validFrom.toNat)
    (distN s.cfg.rowSlots s.win.displayStart.toNat s.releaseSlot) with h | h
  · rw [State.release_of_farther h, Nat.max_eq_right h.le]
  · rw [State.release_of_not_farther h, Nat.max_eq_left h]

/-! ## `d.advance` (R403) -/

/-- R403: consumer `sel` moves to row `t`, and rows are released while armed. -/
def State.advanced (s : State) (sel : Byte) (t : Half) : State :=
  if s.dsp.armed then (s.setPos (unitOf sel) t).release else s.setPos (unitOf sel) t

theorem exec_dAdvance_before_show {s : State} (sel : Byte) (t : Half) (h : s.dsp.showing = false) :
    exec (.dAdvance sel t) s = .next (s.respond 0) := by
  rw [exec, execDAdvance, h]
  rfl

theorem exec_dAdvance_of_hidden {s : State} {t : Half} (sel : Byte) (hshow : s.dsp.showing = true) (h : ¬RowVisible s t.toNat) :
    exec (.dAdvance sel t) s = .next ((s.desyncReset .desyncRow).respond 0) := by
  rw [exec, execDAdvance, rowOf, rowOk_of_hidden h, hshow]
  rfl

theorem exec_dAdvance_eq_advanced {s : State} {t : Half} (sel : Byte) (h : RowVisible s t.toNat) :
    exec (.dAdvance sel t) s = .next ((s.advanced sel t).respond (s.validResponse t.toNat)) := by
  have hok := (s.rowOk_iff _).mpr h
  obtain ⟨hshowing, -, -⟩ := h
  rw [exec, execDAdvance, rowOf, hok, hshowing]
  rfl

theorem State.advanced_eq (s : State) (sel : Byte) (t : Half) :
    s.advanced sel t = { s.setPos (unitOf sel) t with win.validFrom := (s.advanced sel t).win.validFrom } := by
  unfold State.advanced
  split
  · exact State.release_eq _
  · rfl

theorem State.advanced_of_unarmed {s : State} (sel : Byte) (t : Half) (h : s.dsp.armed = false) :
    s.advanced sel t = s.setPos (unitOf sel) t := by
  rw [State.advanced, h]
  rfl

theorem State.advanced_of_armed {s : State} (sel : Byte) (t : Half) (h : s.dsp.armed = true) :
    s.advanced sel t = (s.setPos (unitOf sel) t).release := by
  rw [State.advanced, h]
  rfl

/-- The consumer named by bit 0 of `SEL` moves, the other one stays. -/
theorem State.advanced_pos (s : State) (sel : Byte) (t : Half) :
    (s.advanced sel t).dsp =
      { s.dsp with pos0 := if sel.getLsbD 0 then s.dsp.pos0 else t, pos1 := if sel.getLsbD 0 then t else s.dsp.pos1 } := by
  rw [s.advanced_eq, State.setPos_dsp, unitOf]
  cases sel.getLsbD 0 <;> rfl

/-- Settles O17: the answer before the first show, the desync reset, and `State.advanced`. -/
theorem advanceMovesOrDesyncs : Obligations.AdvanceMovesOrDesyncs := by
  refine fun s sel t => ⟨exec_dAdvance_before_show sel t, fun hshow h => ?hidden, fun h => ?visible⟩
  case hidden => exact ⟨_, exec_dAdvance_of_hidden sel hshow h, rfl, rfl, fun _ => rfl⟩
  case visible =>
    have hmoved := s.advanced_eq sel t
    have hpos := s.advanced_pos sel t
    refine ⟨_, exec_dAdvance_eq_advanced sel h, fun hsel => ?_, fun hsel => ?_, ?_, ?_, fun harmed => ?unarmed,
      fun cand harmed hcand => ?armed, ?_, ?_⟩
    case unarmed => rw [State.respond_win, State.advanced_of_unarmed sel t harmed, State.setPos_win]
    case armed =>
      obtain rfl : cand = (s.setPos (unitOf sel) t).releaseSlot := by
        rw [hcand, State.respond_dsp, State.advanced_of_armed sel t harmed, State.release_eq]
        rfl
      rw [State.respond_win, State.advanced_of_armed sel t harmed]
      exact ⟨State.release_of_farther (s := s.setPos (unitOf sel) t),
        fun hle => by rw [State.release_of_not_farther (s := s.setPos (unitOf sel) t) hle, State.setPos_win]⟩
    · simp [hpos, (by simpa using hsel : sel[0] = false)]
    · simp [hpos, (by simpa using hsel : sel[0] = true)]
    · rw [State.respond_env, hmoved]
      rfl
    · rw [State.respond_env, hmoved]
      rfl
    · rw [hmoved]
      rfl
    · intro a
      rw [hmoved]
      rfl

/-! ## The hold count (R412) -/

/-- Settles O22: the widest hold is 15 refreshes 17 times. -/
theorem holdCountRange : Obligations.HoldCountRange := by
  intro p sp hlo hhi
  obtain ⟨-, -, -, -, -, -, -, -, -, hmin, hmax, -, -⟩ := params_facts p
  have hfactor : 1 + (-sp.toInt).toNat ≤ 17 := by omega
  refine ⟨Nat.mul_pos hmin (by omega), Nat.mul_le_mul hmax hfactor, fun hff => ?_, fun hslow => ?_⟩
  · rw [holdCount, Int.toNat_of_nonpos (by omega), Nat.add_zero, Nat.mul_one]
  · rw [holdCount, Nat.cast_mul, Nat.cast_add, Int.toNat_of_nonneg (by omega), abs_of_neg hslow]
    rfl

/-- The hold count of a legal speed fits `S.hold_ctr`. -/
theorem toNat_holdCount (p : Params) {sp : BitVec 8} (h : speedLegal sp.toInt = true) :
    ((BitVec.ofNat 8 (holdCount p sp)).toNat : Int) = p.refreshPerFrame * (1 + max 0 (-sp.toInt)) := by
  obtain ⟨hlo, hhi⟩ := (speedLegal_iff _).mp h
  obtain ⟨-, hfits, -, -⟩ := holdCountRange p sp hlo hhi
  rw [BitVec.toNat_ofNat, Nat.mod_eq_of_lt (by omega), holdCount, Nat.cast_mul, Nat.cast_add, Int.toNat_eq_max, max_comm]
  rfl

/-! ## The frame shown (R410, R411) -/

/-- R410: the audio of the next frame, as it goes on display: its slot is shown and handed off. -/
def State.nextAudio (s : State) : State :=
  match s.next.aslot with
  | none => s
  | some k => (s.setSlot k { s.slot k with shown := true }).tryHandoff k

/-- R410, R411: the state after the tick that puts the next frame on display. -/
def State.nextShown (s : State) : State :=
  { s with
    win := { s.win with displayStart := s.next.startSlot, validFrom := s.next.startSlot }
    decShown := s.decShown || !s.next.ready
    disp := s.next
    next := FrameRec.none
    dsp := { showing := true, armed := false, holdCtr := BitVec.ofNat 8 (holdCount s.cfg s.next.speed), pos0 := 0, pos1 := 0 }
    ctl := { s.ctl with stepPending := false }
    slot0 := s.nextAudio.slot0
    slot1 := s.nextAudio.slot1
    env := s.nextAudio.env
    ev := Event.record .flip s.ev }

theorem State.nextAudio_of_none {s : State} (h : s.next.aslot = none) : s.nextAudio = s := by
  simp only [State.nextAudio, h]

theorem State.nextAudio_of_some {s : State} {k : Fin 2} (h : s.next.aslot = some k) :
    s.nextAudio = (s.setSlot k { s.slot k with shown := true }).tryHandoff k := by
  simp only [State.nextAudio, h]

/-- The handoff changes the slots and the outputs only. -/
theorem State.nextAudio_eq (s : State) :
    s.nextAudio = { s with slot0 := s.nextAudio.slot0, slot1 := s.nextAudio.slot1
                           env := { s.env with emitted := s.nextAudio.env.emitted } } := by
  cases h : s.next.aslot with
  | none => rw [State.nextAudio_of_none h]
  | some k =>
    rw [State.nextAudio_of_some h]
    obtain ⟨a, b, o, hh⟩ := (s.setSlot k { s.slot k with shown := true }).tryHandoff_eq k
    rw [hh]
    rfl

theorem State.showAudio_of_none {u : State} (h : u.disp.aslot = none) : u.showAudio = u := by
  simp only [State.showAudio, h]

theorem State.showAudio_of_some {u : State} {k : Fin 2} (h : u.disp.aslot = some k) :
    u.showAudio = (u.setSlot k { u.slot k with shown := true }).tryHandoff k := by
  simp only [State.showAudio, h]

/-- The handoff at a flip sees nothing of the other lines of `Flip` (log 8). -/
theorem State.showAudio_eq {s u : State} (hdisp : u.disp = s.next) (hp : u.ctl.paused = s.ctl.paused) (h0 : u.slot0 = s.slot0)
    (h1 : u.slot1 = s.slot1) (he : u.env = s.env) :
    u.showAudio = { u with slot0 := s.nextAudio.slot0, slot1 := s.nextAudio.slot1, env := s.nextAudio.env } := by
  cases h : s.next.aslot with
  | none => rw [State.showAudio_of_none (hdisp ▸ h), State.nextAudio_of_none h, ← h0, ← h1, ← he]
  | some k =>
    have hslot : u.slot k = s.slot k := by simp only [State.slot, h0, h1]
    obtain ⟨hs0, hs1, hse⟩ := State.tryHandoff_congr (s := s.setSlot k { s.slot k with shown := true })
      (t := u.setSlot k { u.slot k with shown := true }) k hp (by simp [hslot, h0]) (by simp [hslot, h1]) he
    obtain ⟨a, b, o, hu⟩ := (u.setSlot k { u.slot k with shown := true }).tryHandoff_eq k
    rw [State.showAudio_of_some (hdisp ▸ h), State.nextAudio_of_some h, ← hs0, ← hs1, ← hse, hu]
    rfl

/-- With the next frame record cleared no flip is armed, so the last lines of the tick only clear the positions. -/
theorem State.endTick_showNext (s : State) {d : Display} (h : d.showing = true) :
    (State.showNext { s with dsp := d }).endTick = s.nextShown := by
  refine (congrArg (fun u => State.endTick (State.raise u .flip))
    (State.showAudio_eq (s := s) (by rfl) (by rfl) (by rfl) (by rfl) (by rfl))).trans ?_
  unfold State.endTick State.arm
  simp only [State.raise, FrameRec.none, h]
  cases s.cfg.flipPolicy <;> simp [State.nextShown, FrameRec.none]

/-! ## The tick (R406, R408) -/

theorem exec_dTick_of_flip {s : State} (harmed : s.dsp.armed = true) (hshow : s.dsp.showing = true) (hfits : FlipFits s) :
    exec .dTick s = .next s.nextShown := by
  have hflip : exec .dTick s = .next s.showNext.endTick := by
    rw [exec, execDTick, harmed, (s.flipWindowOk_iff).mpr hfits]
    rfl
  exact hflip.trans (congrArg _ (s.endTick_showNext hshow))

theorem exec_dTick_of_underrun {s : State} (harmed : s.dsp.armed = true) (hfits : ¬FlipFits s) :
    exec .dTick s = .next (s.desyncReset .desyncUnderrun) := by
  rw [exec, execDTick, harmed, Bool.eq_false_iff.mpr (mt s.flipWindowOk_iff.mp hfits)]
  rfl

theorem exec_dTick_of_firstShow {s : State} (harmed : s.dsp.armed = false) (hshow : s.dsp.showing = false)
    (hvalid : s.next.valid = true) (hready : s.next.ready = true) : exec .dTick s = .next s.nextShown := by
  have hfirst : exec .dTick s = .next (State.showNext { s with dsp.showing := true }).endTick := by
    rw [exec, execDTick, harmed, hshow, hvalid, hready]
    rfl
  exact hfirst.trans (congrArg _ (s.endTick_showNext rfl))

theorem exec_dTick_of_nothing {s : State} (harmed : s.dsp.armed = false) (hshow : s.dsp.showing = false)
    (hnext : ¬(s.next.valid = true ∧ s.next.ready = true)) : exec .dTick s = .next s.endTick := by
  rw [exec, execDTick, harmed, hshow, Bool.eq_false_iff.mpr (mt Bool.and_eq_true_iff.mp hnext)]
  rfl

theorem exec_dTick_of_paused {s : State} (harmed : s.dsp.armed = false) (hshow : s.dsp.showing = true) (hp : PausedEff s) :
    exec .dTick s = .next s.endTick := by
  rw [exec, execDTick, harmed, hshow, s.pausedEff_iff.mpr hp]
  rfl

theorem exec_dTick_of_countdown {s : State} (harmed : s.dsp.armed = false) (hshow : s.dsp.showing = true) (hp : ¬PausedEff s) :
    exec .dTick s = .next s.countdown.endTick := by
  rw [exec, execDTick, harmed, hshow, Bool.eq_false_iff.mpr (mt s.pausedEff_iff.mp hp)]
  rfl

/-- The last lines of a tick arm the next flip by the values they leave (log 8). -/
theorem State.endTick_armed_iff (s : State) : s.endTick.dsp.armed = true ↔ ArmCondition s.endTick :=
  State.arm_iff { s with dsp := { s.dsp with pos0 := 0, pos1 := 0 } }

theorem State.endTick_hidden {s : State} (h : s.dsp.showing = false) :
    s.endTick = { s with dsp := { s.dsp with pos0 := 0, pos1 := 0, armed := false } } := by
  have harm : State.arm { s with dsp := { s.dsp with pos0 := 0, pos1 := 0 } } = false := by
    simp [State.arm, h]
  rw [State.endTick, harm]

/-- Settles O19: the paused tick, the countdown, and the tick with nothing to show. -/
theorem tickCountsDown : Obligations.TickCountsDown := by
  refine fun s harmed => ⟨fun hshow => ?showing, fun hshow hnext => ?hidden⟩
  case hidden => rw [exec_dTick_of_nothing harmed hshow hnext, State.endTick_hidden hshow]
  case showing =>
    by_cases hp : PausedEff s
    · exact ⟨_, exec_dTick_of_paused harmed hshow hp, fun _ => rfl, fun hn => absurd hp hn, hshow, rfl, rfl, s.endTick_armed_iff,
        rfl, fun _ => rfl⟩
    · refine ⟨_, exec_dTick_of_countdown harmed hshow hp, fun h => absurd h hp, fun _ => ?_, hshow, rfl, rfl,
        s.countdown.endTick_armed_iff, rfl, fun _ => rfl⟩
      have hlt := s.dsp.holdCtr.isLt
      show ((BitVec.ofNat 8 (max 1 (s.dsp.holdCtr.toNat - 1))).toNat : Int) = _
      rw [BitVec.toNat_ofNat]
      omega

/-- The state after the tick that puts the next frame on display is as R410 and R411 say. -/
theorem State.shownFrom_nextShown {s : State} (h : speedLegal s.next.speed.toInt = true) : ShownFrom s s.nextShown := by
  have haudio := s.nextAudio_eq
  refine ⟨rfl, rfl, rfl, rfl, fun hr => ?early, fun hr => ?late, toNat_holdCount s.cfg h, rfl, rfl, rfl, rfl, rfl,
    fun i hi => Event.record_irqStatus .flip s.ev i hi, Event.record_noCause .flip s.ev rfl, fun hn => ?silent,
    fun k hk handed hh => ?audio, ?frame⟩
  case early => simp [State.nextShown, hr]
  case late => simp [State.nextShown, hr]
  case silent => simp only [State.nextShown, State.nextAudio_of_none hn, and_self]
  case audio => simp only [State.nextShown, State.nextAudio_of_some hk, hh, and_self]
  case frame =>
    have henv : s.nextAudio.env = { s.env with emitted := s.nextAudio.env.emitted } := congrArg State.env haudio
    simp only [State.nextShown]
    rw [← henv]

/-- Settles O20: the flip is `State.nextShown`, the underrun the desync reset. -/
theorem armedTickFlipsOrResets : Obligations.ArmedTickFlipsOrResets :=
  fun _ harmed => ⟨fun hshow hfits hspeed =>
      ⟨_, exec_dTick_of_flip harmed hshow hfits, State.shownFrom_nextShown hspeed, fun _ => rfl⟩,
    exec_dTick_of_underrun harmed⟩

/-- Settles O21: the first show is the same update as a flip. -/
theorem tickShowsTheFirstFrame : Obligations.TickShowsTheFirstFrame :=
  fun _ harmed hshow hvalid hready hspeed =>
    ⟨_, exec_dTick_of_firstShow harmed hshow hvalid hready, State.shownFrom_nextShown hspeed, fun _ => rfl⟩

end Sys2Proof.Machine
end

section
/-! PROOFS. Where the rows of the two frames lie past `display_start`, and which rows of a frame start before an image word or end by
it (spec/43_display_sync.md R413; spec/42_sg_planner.md R354, R360). -/

namespace Sys2Proof.Machine

/-! ## Slots past `display_start` -/

theorem distN_self {n : Nat} (h : 0 < n) (a : Nat) : distN n a a = 0 := by
  have hlt := Nat.mod_lt a h
  rw [distN, Nat.add_sub_cancel' hlt.le, Nat.mod_self]

/-- What is left of a distance once `d` of it is gone. -/
theorem distN_addN_left {n a b d : Nat} (ha : a < n) (hb : b < n) (hd : d ≤ distN n a b) :
    distN n (addN n a d) b = distN n a b - d := by
  have hlt := distN_lt (Nat.zero_lt_of_lt ha) a b
  calc distN n (addN n a d) b
    _ = distN n (addN n a d) (addN n a (distN n a b)) := by rw [addN_distN ha hb]
    _ = distN n a b - d := distN_addN hd (by omega)

theorem State.rowsShown_of_showing {s : State} (h : s.dsp.showing = true) : s.rowsShown = s.cfg.rows := if_pos h

theorem State.rowsShown_of_hidden {s : State} (h : s.dsp.showing = false) : s.rowsShown = 0 := by
  rw [State.rowsShown, h]
  rfl

theorem State.rowsShown_le (s : State) : s.rowsShown ≤ s.cfg.rows := by
  unfold State.rowsShown
  split
  · exact Nat.le_refl _
  · exact Nat.zero_le _

theorem State.rowsAhead_of_planning {s : State} (h : s.planning = true) : s.rowsAhead = s.cur.rowsPlanned.toNat := if_pos h

theorem State.rowsAhead_of_not_planning {s : State} (h : s.planning = false) : s.rowsAhead = 0 := by
  rw [State.rowsAhead, h]
  rfl

theorem State.rowsLanded_of_planning {s : State} (h : s.planning = true) :
    s.rowsLanded = s.rowsDone s.cur.doneWords.toNat := if_pos h

theorem State.rowsLanded_of_not_planning {s : State} (h : s.planning = false) : s.rowsLanded = 0 := by
  rw [State.rowsLanded, h]
  rfl

theorem State.planning_of_no_next {s : State} (h : s.next.valid = false) : s.planning = false := by
  rw [State.planning, h]
  rfl

theorem State.planning_of_needVideo {s : State} (h : s.fsm.state = .needVideo) : s.planning = false := by
  rw [State.planning, h]
  exact Bool.and_false _

theorem State.planning_iff (s : State) : s.planning = true ↔ s.next.valid = true ∧ s.fsm.state ≠ .needVideo := by
  simp [State.planning]

theorem IndicesOk.validFrom_eq {s : State} (h : IndicesOk s) :
    s.win.validFrom.toNat = addN s.cfg.rowSlots s.win.displayStart.toNat s.rowsReleased :=
  (addN_distN h.start_lt h.from_lt).symm

/-- How far past `valid_from` the slot of row `i` past `display_start` is. -/
theorem IndicesOk.dist_validFrom {s : State} {i : Nat} (h : IndicesOk s) (hlo : s.rowsReleased ≤ i)
    (hhi : i - s.rowsReleased < s.cfg.rowSlots) :
    distN s.cfg.rowSlots s.win.validFrom.toNat (addN s.cfg.rowSlots s.win.displayStart.toNat i) = i - s.rowsReleased := by
  rw [h.validFrom_eq, distN_addN hlo hhi]

/-- R353: the free words are those past the last assigned row, but one. -/
theorem IndicesOk.freeWords_eq {s : State} (h : IndicesOk s) :
    s.freeWords = s.cfg.ringWords - 1 - s.depthOf s.slotsAssigned := by
  rw [State.depthOf, h.startOf_assigned, State.freeWords]

/-- Settles O58: the counts of `IndicesOk.slot_counts`, and the unreleased rows among them. -/
theorem syncContractGivesTheWindow : Obligations.SyncContractGivesTheWindow := by
  intro s hinv
  have h := hinv.indices
  have hp := params_facts s.cfg
  obtain ⟨hvalid, -, hslots⟩ := h.slot_counts
  have hreleased := h.released_lt
  refine ⟨h.valid_le_assigned, Nat.le_sub_one_of_lt hslots, fun hshow => ?_⟩
  have hshown := State.rowsShown_of_showing hshow
  refine ⟨Nat.le_sub_one_of_lt hreleased, fun row hlo hhi => ⟨hshow, hhi, ?_⟩, fun hnext => hshown ▸ h.nextStart hnext⟩
  rw [h.dist_validFrom hlo (by omega), hvalid, hshown]
  have hlo : s.rowsReleased ≤ row := hlo
  omega

/-! ## Rows of a frame against its image words -/

/-- Of a test that holds right below each number it holds for, the numbers it holds for are those below their count. -/
theorem lt_countP_range_iff {test : Nat → Bool} {n : Nat} (hdown : ∀ r, r + 1 < n → test (r + 1) = true → test r = true) :
    ∀ r < n, (r < (List.range n).countP test ↔ test r = true) := by
  induction n generalizing test with
  | zero => exact fun r hr => absurd hr (Nat.not_lt_zero r)
  | succ n ih =>
    intro r hr
    have ih := ih (test := test ∘ Nat.succ) fun r hr => hdown (r + 1) (by omega)
    have hle : (List.range n).countP (test ∘ Nat.succ) ≤ n := List.countP_le_length.trans_eq List.length_range
    rw [List.range_succ_eq_map, List.countP_cons, List.countP_map]
    by_cases h0 : test 0 = true
    · rw [if_pos h0]
      cases r with
      | zero => simp [h0]
      | succ r => exact Nat.succ_lt_succ_iff.trans (ih r (by omega))
    · have hnone : (List.range n).countP (test ∘ Nat.succ) = 0 := by
        by_contra hsome
        exact h0 (hdown 0 (by omega) ((ih 0 (by omega)).mp (by omega)))
      rw [if_neg h0, hnone]
      refine ⟨fun hlt => absurd hlt (Nat.not_lt_zero r), fun ht => ?_⟩
      cases r with
      | zero => exact absurd ht h0
      | succ r =>
        have hlt := (ih r (by omega)).mpr ht
        omega

/-- R162, R285 check 7: the row-offset table starts at 0, rises, and ends at the image's words. -/
theorem rowTableOk_iff (p : Params) (h : Header) :
    rowTableOk p h = true ↔
      h.roAt 0 = 0 ∧ (∀ r < p.rows, h.roAt r < h.roAt (r + 1)) ∧ h.roAt p.rows = h.imageWords.toNat := by
  simp [rowTableOk, and_assoc]

theorem roAt_lt_of_lt {p : Params} {h : Header} (hro : rowTableOk p h = true) {q r : Nat} (hqr : q < r) (hr : r ≤ p.rows) :
    h.roAt q < h.roAt r := by
  obtain ⟨-, hrise, -⟩ := (rowTableOk_iff p h).mp hro
  induction r, hqr using Nat.le_induction with
  | base => exact hrise q hr
  | succ r _ ih => exact (ih (by omega)).trans (hrise r hr)

theorem roAt_le_of_le {p : Params} {h : Header} (hro : rowTableOk p h = true) {q r : Nat} (hqr : q ≤ r) (hr : r ≤ p.rows) :
    h.roAt q ≤ h.roAt r := by
  rcases Nat.eq_or_lt_of_le hqr with rfl | hlt
  · exact Nat.le_refl _
  · exact (roAt_lt_of_lt hro hlt hr).le

theorem State.rowsBefore_congr {s t : State} (hcfg : t.cfg = s.cfg) (hhdr : t.hdr = s.hdr) (w : Nat) :
    t.rowsBefore w = s.rowsBefore w := by
  rw [State.rowsBefore, State.rowsBefore, hcfg, hhdr]

theorem State.rowsDone_congr {s t : State} (hcfg : t.cfg = s.cfg) (hhdr : t.hdr = s.hdr) (w : Nat) :
    t.rowsDone w = s.rowsDone w := by
  rw [State.rowsDone, State.rowsDone, hcfg, hhdr]

theorem State.rowsBefore_mono (s : State) {v w : Nat} (h : v ≤ w) : s.rowsBefore v ≤ s.rowsBefore w :=
  List.countP_mono_left fun r _ hr => by
    have hr : s.hdr.roAt r < v := by simpa using hr
    simpa using hr.trans_le h

theorem State.rowsDone_mono (s : State) {v w : Nat} (h : v ≤ w) : s.rowsDone v ≤ s.rowsDone w :=
  List.countP_mono_left fun r _ hr => by
    have hr : s.hdr.roAt (r + 1) ≤ v := by simpa using hr
    simpa using hr.trans h

theorem State.rowsDone_le (s : State) (w : Nat) : s.rowsDone w ≤ s.cfg.rows :=
  List.countP_le_length.trans_eq List.length_range

section
variable {s : State} {r w : Nat}

/-- The rows that start before a word are the first ones. -/
theorem State.lt_rowsBefore_iff (hro : rowTableOk s.cfg s.hdr = true) (hr : r < s.cfg.rows) :
    r < s.rowsBefore w ↔ s.hdr.roAt r < w := by
  refine (lt_countP_range_iff (fun q hq hlt => ?_) r hr).trans decide_eq_true_iff
  have hrise := roAt_lt_of_lt hro (Nat.lt_add_one q) hq.le
  simp only [decide_eq_true_eq] at hlt ⊢
  exact hrise.trans hlt

/-- The rows that end by a word are the first ones. -/
theorem State.lt_rowsDone_iff (hro : rowTableOk s.cfg s.hdr = true) (hr : r < s.cfg.rows) :
    r < s.rowsDone w ↔ s.hdr.roAt (r + 1) ≤ w := by
  refine (lt_countP_range_iff (fun q hq hle => ?_) r hr).trans decide_eq_true_iff
  have hrise := roAt_lt_of_lt hro (Nat.lt_add_one (q + 1)) hq
  simp only [decide_eq_true_eq] at hle ⊢
  exact hrise.le.trans hle

/-- A row that ends by a word starts before every later one. -/
theorem State.rowsDone_le_rowsBefore {v : Nat} (hro : rowTableOk s.cfg s.hdr = true) (h : v ≤ w) :
    s.rowsDone v ≤ s.rowsBefore w := by
  by_contra hlt
  have hrow : s.rowsBefore w < s.cfg.rows := (Nat.not_le.mp hlt).trans_le (s.rowsDone_le v)
  have hends := (State.lt_rowsDone_iff hro hrow).mp (Nat.not_le.mp hlt)
  have hrise := roAt_lt_of_lt hro (Nat.lt_add_one _) hrow
  exact Nat.lt_irrefl _ ((State.lt_rowsBefore_iff hro hrow).mpr (by omega))

theorem State.rowsBefore_zero (s : State) : s.rowsBefore 0 = 0 := by simp [State.rowsBefore]

theorem State.rowsDone_zero (hro : rowTableOk s.cfg s.hdr = true) : s.rowsDone 0 = 0 := by
  have hle := State.rowsDone_le_rowsBefore hro (Nat.le_refl 0)
  rwa [s.rowsBefore_zero, Nat.le_zero] at hle

/-- Every row ends by the image's end. -/
theorem State.rowsDone_imageWords (hro : rowTableOk s.cfg s.hdr = true) : s.rowsDone s.hdr.imageWords.toNat = s.cfg.rows := by
  obtain ⟨-, -, hend⟩ := (rowTableOk_iff _ _).mp hro
  refine le_antisymm (s.rowsDone_le _) (Nat.not_lt.mp fun hlt => Nat.lt_irrefl _ ((State.lt_rowsDone_iff hro hlt).mpr ?_))
  exact (roAt_le_of_le hro hlt (Nat.le_refl _)).trans_eq hend

/-- The rows that end by a word end, all together, by that word. -/
theorem State.roAt_rowsDone_le (hro : rowTableOk s.cfg s.hdr = true) (w : Nat) : s.hdr.roAt (s.rowsDone w) ≤ w := by
  cases hdone : s.rowsDone w with
  | zero => exact ((rowTableOk_iff _ _).mp hro).1.trans_le (Nat.zero_le w)
  | succ r =>
    have hrows := s.rowsDone_le w
    exact (State.lt_rowsDone_iff hro (by omega)).mp (by omega)

/-- While words of the image are missing, so is a row. -/
theorem State.rowsDone_lt_rows (hro : rowTableOk s.cfg s.hdr = true) (h : w < s.hdr.imageWords.toNat) :
    s.rowsDone w < s.cfg.rows := by
  obtain ⟨-, -, hend⟩ := (rowTableOk_iff _ _).mp hro
  refine lt_of_le_of_ne (s.rowsDone_le w) fun heq => ?_
  have hle := State.roAt_rowsDone_le hro w
  rw [heq, hend] at hle
  omega

end

end Sys2Proof.Machine
end

section
/-! PROOFS. What a step keeps of the invariant of the display-sync contract, part by part: the assigned rows and their places in RING,
the indices, the cursors and the phase (spec/43_display_sync.md R413; spec/42_sg_planner.md R350, R353, R361). -/

namespace Sys2Proof.Machine

/-! ## What a step brings about -/

/-- R413 (1), (2): `valid_from` moves forward up to `valid_to`, and `valid_to` up to the planned end. -/
def MovesForward (s t : State) : Prop :=
  distN s.cfg.rowSlots s.win.validFrom.toNat t.win.validFrom.toNat
      ≤ distN s.cfg.rowSlots s.win.validFrom.toNat s.win.validTo.toNat
    ∧ distN s.cfg.rowSlots s.win.validTo.toNat t.win.validTo.toNat
      ≤ distN s.cfg.rowSlots s.win.validTo.toNat s.win.plannedTo.toNat

/-- R505, R551: both resets clear the window and hide the display. -/
def WindowCleared (t : State) : Prop :=
  t.fsm.state = .init ∧ t.win = { validFrom := 0, validTo := 0, displayStart := 0, plannedTo := 0 } ∧ t.dsp.showing = false

/-- The step from `s` to `t` leaves the invariant, and moves the window forward or clears it. -/
structure SyncStep (s t : State) : Prop where
  inv : SyncInv t
  window : WindowCleared t ∨ MovesForward s t

/-- A step that moves neither index of the window. -/
theorem SyncStep.of_window {s t : State} (inv : SyncInv t) (hfrom : t.win.validFrom = s.win.validFrom)
    (hto : t.win.validTo = s.win.validTo) : SyncStep s t := by
  have hp := params_facts s.cfg
  refine ⟨inv, .inr ⟨?_, ?_⟩⟩
  · rw [hfrom, distN_self (by omega)]
    exact Nat.zero_le _
  · rw [hto, distN_self (by omega)]
    exact Nat.zero_le _

/-! ## Rows laid out in RING -/

/-- The assigned rows lie in order when they start at rising distances from some ring word, less than a turn in all. -/
theorem IndicesOk.order_of_depths {t : State} (h : IndicesOk t) {base : Nat} {depth : Nat → Nat}
    (hstart : ∀ i ≤ t.slotsAssigned, t.startOf i = addN t.cfg.ringWords base (depth i))
    (hrise : ∀ i < t.slotsAssigned, depth i < depth (i + 1)) (hturn : depth t.slotsAssigned < t.cfg.ringWords) :
    ∀ i < t.slotsAssigned,
      distN t.cfg.ringWords t.keepOff (t.startOf i) < distN t.cfg.ringWords t.keepOff (t.startOf (i + 1)) := by
  have hmono : ∀ i j, i ≤ j → j ≤ t.slotsAssigned → depth i ≤ depth j := by
    intro i j hij
    induction j, hij using Nat.le_induction with
    | base => exact fun _ => Nat.le_refl _
    | succ j _ ih => exact fun hj => (ih (by omega)).trans (hrise j hj).le
  have hdist : ∀ i ≤ t.slotsAssigned, distN t.cfg.ringWords t.keepOff (t.startOf i) = depth i - depth 0 := by
    intro i hi
    have h0 := hmono 0 i (Nat.zero_le i) hi
    have hi' := hmono i _ hi (Nat.le_refl _)
    rw [← h.startOf_zero, hstart i hi, hstart 0 (Nat.zero_le _), distN_addN h0 (by omega)]
  intro i hi
  have h0 := hmono 0 i (Nat.zero_le i) hi.le
  have hi' := hrise i hi
  rw [hdist i hi.le, hdist (i + 1) hi]
  omega

/-- The assigned rows of `t` are those of `s` but the first `d`: in the same slots, at the same places. -/
structure RowsKept (d : Nat) (s t : State) : Prop where
  cfg : t.cfg = s.cfg
  rt : t.rt = s.rt
  writeOff : t.cur.writeOff = s.cur.writeOff
  plannedTo : t.win.plannedTo = s.win.plannedTo
  validFrom : t.win.validFrom.toNat = addN s.cfg.rowSlots s.win.validFrom.toNat d
  within : d ≤ s.slotsAssigned

section
variable {d : Nat} {s t : State}

theorem RowsKept.rowOffset (k : RowsKept d s t) (x : Nat) : t.rowOffset x = s.rowOffset x := by
  rw [State.rowOffset, State.rowOffset, k.rt]

theorem RowsKept.slot (k : RowsKept d s t) (i : Nat) :
    addN t.cfg.rowSlots t.win.validFrom.toNat i = addN s.cfg.rowSlots s.win.validFrom.toNat (d + i) := by
  rw [k.cfg, k.validFrom, addN_addN]

theorem RowsKept.startOf (k : RowsKept d s t) (i : Nat) : t.startOf i = s.startOf (d + i) := by
  rw [State.startOf, State.startOf, k.slot, State.rowStart, State.rowStart, k.rowOffset, k.plannedTo, k.writeOff]

theorem RowsKept.slotsAssigned (k : RowsKept d s t) (h : IndicesOk s) : t.slotsAssigned = s.slotsAssigned - d := by
  rw [State.slotsAssigned, k.cfg, k.validFrom, k.plannedTo]
  exact distN_addN_left h.from_lt h.plannedTo_lt k.within

/-- The rows kept lie as before. -/
theorem RowsKept.layout (k : RowsKept d s t) (h : SyncInv s) (hi : IndicesOk t)
    (hbase : t.cur.frameRingBase.toNat < s.cfg.ringWords)
    (hoffset : t.planning = true → t.cur.writeOff.toNat =
      addN t.cfg.ringWords t.cur.frameRingBase.toNat (min (128 * t.cur.fetchSec.toNat) t.cur.imgWords.toNat)) : LayoutOk t := by
  have hassigned := k.slotsAssigned h.indices
  have hwithin := k.within
  refine ⟨by rw [k.rt, k.cfg, h.layout.length], fun i hi' => ?start, fun i hi' => ?aligned, ?order, k.cfg ▸ hbase, hoffset⟩
  case start =>
    rw [k.startOf, k.cfg]
    exact h.layout.start_lt _ (by omega)
  case aligned =>
    rw [k.slot, k.rowOffset]
    exact h.layout.aligned _ (by omega)
  case order =>
    refine hi.order_of_depths (base := s.keepOff) (depth := fun i => s.depthOf (d + i)) (fun i hi' => ?_) (fun i hi' => ?_) ?_
    · rw [k.startOf, k.cfg]
      exact h.startOf_eq (by omega)
    · exact h.layout.order (d + i) (by omega)
    · rw [k.cfg]
      exact h.depthOf_lt _

/-- A read that lands nowhere else than before stays apart from the rows of the valid window that are kept. -/
theorem RowsKept.apart (k : RowsKept d s t) (h : SyncInv s)
    (hlands : ∀ a, Lands t a → InRing s.cfg a →
      Lands s a ∧ t.win.validTo = s.win.validTo ∧ d ≤ distN s.cfg.rowSlots s.win.validFrom.toNat s.win.validTo.toNat) :
    ∀ a, Lands t a → InRing t.cfg a → ∀ j < distN t.cfg.rowSlots t.win.validFrom.toNat t.win.validTo.toNat,
      distN t.cfg.ringWords (t.startOf j) (t.startOf (j + 1)) ≤ distN t.cfg.ringWords (t.startOf j) ((a - ringBase) / 4) := by
  intro a ha hring j hj
  rw [k.cfg] at hring hj ⊢
  obtain ⟨hs, hto, hd⟩ := hlands a ha hring
  rw [k.validFrom, hto, distN_addN_left h.indices.from_lt h.indices.validTo_lt hd] at hj
  rw [k.startOf, k.startOf]
  exact h.landing.apart a hs hring (d + j) (by omega)

/-- The invariant after a step that gives up the first `d` assigned rows and assigns none. -/
theorem RowsKept.syncInv (k : RowsKept d s t) (h : SyncInv s) (indices : IndicesOk t) (cursors : CursorsOk t) (phase : PhaseOk t)
    (base : t.cur.frameRingBase.toNat < s.cfg.ringWords)
    (offset : t.planning = true → t.cur.writeOff.toNat =
      addN t.cfg.ringWords t.cur.frameRingBase.toNat (min (128 * t.cur.fetchSec.toNat) t.cur.imgWords.toNat))
    (header : t.hdr.audioWords.toNat ≤ s.cfg.audioSlotWords) (slots : ∀ j, (t.slot j).words.toNat ≤ s.cfg.audioSlotWords)
    (lands : ∀ a, Lands t a → InRing s.cfg a →
      Lands s a ∧ t.win.validTo = s.win.validTo ∧ d ≤ distN s.cfg.rowSlots s.win.validFrom.toNat s.win.validTo.toNat) :
    SyncInv t :=
  ⟨indices, cursors, phase, k.layout h indices base offset,
    ⟨k.cfg ▸ header, k.cfg ▸ slots, k.apart h lands⟩⟩

/-- A step that leaves the row table, the indices and the write offset keeps every row. -/
theorem RowsKept.of_same (h : SyncInv s) (hcfg : t.cfg = s.cfg) (hrt : t.rt = s.rt) (hwin : t.win = s.win)
    (hoff : t.cur.writeOff = s.cur.writeOff) : RowsKept 0 s t :=
  ⟨hcfg, hrt, hoff, by rw [hwin], by rw [hwin, addN_zero h.indices.from_lt], Nat.zero_le _⟩

/-! ## The indices and the cursors -/

/-- The indices hold on with the same rows counted behind them. -/
theorem IndicesOk.of_same (h : IndicesOk s) (hcfg : t.cfg = s.cfg) (hwin : t.win = s.win)
    (hshow : t.dsp.showing = s.dsp.showing) (hahead : t.rowsAhead = s.rowsAhead) (hlanded : t.rowsLanded = s.rowsLanded)
    (hnext : t.next.valid = true →
      t.next.startSlot.toNat = addN s.cfg.rowSlots s.win.displayStart.toNat s.rowsShown)
    (hpos0 : t.dsp.pos0.toNat < s.cfg.rows) (hpos1 : t.dsp.pos1.toNat < s.cfg.rows)
    (harmed : t.dsp.armed = true → t.dsp.showing = true ∧ t.next.valid = true) : IndicesOk t := by
  have hshown : t.rowsShown = s.rowsShown := by rw [State.rowsShown, State.rowsShown, hshow, hcfg]
  have hreleased : t.rowsReleased = s.rowsReleased := by rw [State.rowsReleased, State.rowsReleased, hwin, hcfg]
  constructor <;> simp only [hcfg, hwin, hshow, hshown, hahead, hlanded, hreleased] at *
  case start_lt => exact h.start_lt
  case from_lt => exact h.from_lt
  case planned => exact h.planned
  case validTo => exact h.validTo
  case landed_le => exact h.landed_le
  case ahead_le => exact h.ahead_le
  case released_lt => exact h.released_lt
  case released_hidden => exact h.released_hidden
  case budget => exact h.budget
  case nextStart => exact hnext
  case pos0_lt => exact hpos0
  case pos1_lt => exact hpos1
  case armed_next => exact harmed

/-- With no frame planned ahead only its header is held to anything. -/
theorem CursorsOk.of_not_planning (hoff : t.cur.writeOff.toNat < t.cfg.ringWords) (hplan : t.planning = false)
    (hheader : t.next.valid = true →
      rowTableOk t.cfg t.hdr = true ∧ t.hdr.imageWords.toNat ≤ t.cfg.ringWords - 1 ∧ 1 ≤ t.hdr.imageWords.toNat) :
    CursorsOk t := by
  have hnot {P : Prop} : t.planning = true → P := fun h => absurd h (by simp [hplan])
  exact ⟨hoff, hheader, hnot, hnot, hnot, hnot, hnot, hnot, hnot, hnot⟩

/-! ## Steps that keep the frames -/

theorem DecState.imageDone_excludes {st : DecState} (h : st.imageDone = true) :
    st ≠ .init ∧ st ≠ .needVideo ∧ st.imageReading = false := by
  revert h
  cases st <;> decide

/-- From `s` to `t` the frames, their rows, and the read that lands in RING are kept; the audio slots hold no more words than the
header says. -/
structure KeepsFrames (s t : State) : Prop where
  cfg : t.cfg = s.cfg
  rt : t.rt = s.rt
  win : t.win = s.win
  cur : t.cur = s.cur
  hdr : t.hdr = s.hdr
  dsp : t.dsp = s.dsp
  decShown : t.decShown = s.decShown
  valid : t.next.valid = s.next.valid
  startSlot : t.next.startSlot = s.next.startSlot
  slots : ∀ k, (t.slot k).words = (s.slot k).words ∨ (t.slot k).words = s.hdr.audioWords
  lands : ∀ a, Lands t a → InRing s.cfg a → Lands s a

theorem KeepsFrames.rowsAhead (k : KeepsFrames s t) (hplan : t.planning = s.planning) : t.rowsAhead = s.rowsAhead := by
  rw [State.rowsAhead, State.rowsAhead, hplan, k.cur]

theorem KeepsFrames.rowsLanded (k : KeepsFrames s t) (hplan : t.planning = s.planning) : t.rowsLanded = s.rowsLanded := by
  rw [State.rowsLanded, State.rowsLanded, hplan, k.cur, State.rowsDone_congr k.cfg k.hdr]

theorem KeepsFrames.cursors (k : KeepsFrames s t) (h : CursorsOk s) (hplan : t.planning = s.planning)
    (hstate : t.planning = true →
      t.fsm.state = s.fsm.state ∨ (s.fsm.state.imageReading = false ∧ t.fsm.state.imageReading = false)) : CursorsOk t := by
  constructor <;> simp only [k.cfg, k.cur, k.hdr, k.valid, State.rowsBefore_congr k.cfg k.hdr, hplan] at *
  case off_lt => exact h.off_lt
  case header => exact h.header
  case words => exact h.words
  case sectors => exact h.sectors
  case fetched => exact h.fetched
  case planned => exact h.planned
  case done_le => exact h.done_le
  case prepping =>
    intro hp hst
    rcases hstate hp with heq | ⟨-, hnot⟩
    · exact h.prepping hp (heq ▸ hst)
    · rw [hst] at hnot
      cases hnot
  case reading =>
    intro hp hread
    rcases hstate hp with heq | ⟨-, hnot⟩
    · exact h.reading hp (heq ▸ hread)
    · rw [hnot] at hread
      cases hread
  case finished =>
    intro hp hread
    rcases hstate hp with heq | ⟨hnot, -⟩
    · exact h.finished hp (heq ▸ hread)
    · exact h.finished hp hnot

theorem KeepsFrames.syncStep (k : KeepsFrames s t) (h : SyncInv s) (hplan : t.planning = s.planning)
    (hstate : t.planning = true →
      t.fsm.state = s.fsm.state ∨ (s.fsm.state.imageReading = false ∧ t.fsm.state.imageReading = false))
    (hphase : PhaseOk t) : SyncStep s t := by
  have hrows := RowsKept.of_same h k.cfg k.rt k.win (congrArg _ k.cur)
  refine .of_window ?_ (by rw [k.win]) (by rw [k.win])
  refine hrows.syncInv h ?indices (k.cursors h.cursors hplan hstate) hphase (k.cur ▸ h.layout.base_lt) ?offset
    (k.hdr ▸ h.landing.header) (fun j => ?slots) fun a ha hring => ⟨k.lands a ha hring, by rw [k.win], Nat.zero_le _⟩
  case indices =>
    exact h.indices.of_same k.cfg k.win (by rw [k.dsp]) (k.rowsAhead hplan) (k.rowsLanded hplan)
      (k.valid ▸ k.startSlot ▸ h.indices.nextStart) (k.dsp ▸ h.indices.pos0_lt) (k.dsp ▸ h.indices.pos1_lt)
      (k.dsp ▸ k.valid ▸ h.indices.armed_next)
  case offset =>
    rw [hplan, k.cur, k.cfg]
    exact h.layout.offset
  case slots =>
    rcases k.slots j with hw | hw <;> rw [hw]
    · exact h.landing.slots j
    · exact h.landing.header

/-- A step that leaves DEC's state as well. -/
theorem KeepsFrames.of_state (k : KeepsFrames s t) (h : SyncInv s) (hst : t.fsm.state = s.fsm.state)
    (hready : t.next.ready = s.next.ready) : SyncStep s t := by
  have hplan : t.planning = s.planning := by rw [State.planning, State.planning, k.valid, hst]
  refine k.syncStep h hplan (fun _ => .inl hst) ?_
  constructor <;> simp only [hst, hready, k.dsp, k.decShown, k.valid]
  case hidden => exact h.phase.hidden
  case ahead => exact h.phase.ahead
  case needed => exact h.phase.needed
  case shownEarly => exact h.phase.shownEarly
  case ready => exact h.phase.ready

/-- A step of DEC while there is no next frame, to a state that needs none. -/
theorem KeepsFrames.of_no_next (k : KeepsFrames s t) (h : SyncInv s) (hnext : s.next.valid = false) {st : DecState}
    (hto : t.fsm.state = st) (hinit : st = .init → s.fsm.state = .init)
    (hst : st ≠ .needVideo ∧ st.imageReading = false := by decide) : SyncStep s t := by
  have htnext : t.next.valid = false := k.valid.trans hnext
  have hplan := State.planning_of_no_next htnext
  subst hto
  refine k.syncStep h (hplan.trans (State.planning_of_no_next hnext).symm) (fun hp => absurd hp (by simp [hplan])) ?_
  refine ⟨fun hi => ?_, fun hv => ?_, fun hneeds => ?_, fun _ => htnext, fun hv => ?_⟩
  · rw [k.dsp, k.valid, k.decShown]
    exact h.phase.hidden (hinit hi)
  · exact absurd hv (by simp [htnext])
  · exact absurd hneeds (by simp [hst])
  · exact absurd hv (by simp [htnext])

/-- A step of DEC after the image, which leaves a fully decoded next frame only on its way to the frame after it. -/
theorem KeepsFrames.of_imageDone (k : KeepsFrames s t) (h : SyncInv s) (hs : s.fsm.state.imageDone = true) {st : DecState}
    (hto : t.fsm.state = st) (hready : t.next.valid = true → t.next.ready = true → st = .newFrame ∨ st = .hitEnd)
    (hst : st.imageDone = true := by decide) : SyncStep s t := by
  subst hto
  obtain ⟨-, hsneed, hsread⟩ := DecState.imageDone_excludes hs
  obtain ⟨htinit, htneed, htread⟩ := DecState.imageDone_excludes hst
  have hplan : t.planning = s.planning := by
    rw [Bool.eq_iff_iff, t.planning_iff, s.planning_iff, k.valid]
    exact and_congr_right fun _ => iff_of_true htneed hsneed
  have hphase : PhaseOk t := ⟨fun hi => absurd hi htinit, fun _ => .inr (.inr hst),
    fun hneeds => absurd hneeds (by simp [htneed, htread]), k.decShown ▸ k.valid ▸ h.phase.shownEarly, hready⟩
  exact k.syncStep h hplan (fun _ => .inr ⟨hsread, htread⟩) hphase

end

/-! ## The display -/

/-- A change of the display's own fields that leaves `S.showing`. -/
theorem SyncInv.withDisplay {s : State} (h : SyncInv s) {d : Display} (hshow : d.showing = s.dsp.showing)
    (hpos0 : d.pos0.toNat < s.cfg.rows) (hpos1 : d.pos1.toNat < s.cfg.rows)
    (harmed : d.armed = true → d.showing = true ∧ s.next.valid = true) : SyncInv { s with dsp := d } := by
  have hrows : RowsKept 0 s { s with dsp := d } := .of_same h rfl rfl rfl rfl
  obtain ⟨hhidden, hahead, hneeded, hearly, hready⟩ := h.phase
  obtain ⟨hoff, hheader, hwords, hsectors, hfetched, hplanned, hdone, hprepping, hreading, hfinished⟩ := h.cursors
  exact hrows.syncInv h (h.indices.of_same rfl rfl hshow rfl rfl h.indices.nextStart hpos0 hpos1 harmed)
    ⟨hoff, hheader, hwords, hsectors, hfetched, hplanned, hdone, hprepping, hreading, hfinished⟩
    ⟨fun hi => hshow ▸ hhidden hi, hahead, hneeded, hearly, hready⟩ h.layout.base_lt h.layout.offset h.landing.header
    h.landing.slots fun a ha _ => ⟨ha, rfl, Nat.zero_le _⟩

/-- A slot replaced by one with as many words. -/
theorem State.setSlot_words (s : State) {k : Fin 2} {v : AudioSlot} (h : v.words = (s.slot k).words) (j : Fin 2) :
    ((s.setSlot k v).slot j).words = (s.slot j).words := by
  by_cases hj : j = k
  · rw [hj, s.setSlot_slot, h]
  · rw [s.setSlot_slot_ne v hj]

/-- Handing off or discarding a slot's buffer leaves how many words each slot holds. -/
theorem State.tryHandoff_words (s : State) (k j : Fin 2) : ((s.tryHandoff k).slot j).words = (s.slot j).words := by
  rcases s.tryHandoff_cases k with ⟨-, h⟩ | ⟨-, -, h⟩ | ⟨-, -, h⟩ <;> rw [h]
  · exact s.setSlot_words (by rfl) j
  · exact s.setSlot_words (v := { s.slot k with given := true }) rfl j

theorem State.nextAudio_words (s : State) (j : Fin 2) : (s.nextAudio.slot j).words = (s.slot j).words := by
  cases h : s.next.aslot with
  | none => rw [State.nextAudio_of_none h]
  | some k =>
    rw [State.nextAudio_of_some h, State.tryHandoff_words]
    exact s.setSlot_words (by rfl) j

/-- R405: a step that releases `d` more rows of the displayed frame, but not its last one. -/
theorem SyncInv.withValidFrom {s : State} (h : SyncInv s) {d : Nat} {v : Half} (hshow : s.dsp.showing = true)
    (hv : v.toNat = addN s.cfg.rowSlots s.win.validFrom.toNat d) (hd : s.rowsReleased + d < s.cfg.rows) :
    SyncInv { s with win.validFrom := v } := by
  have hp := params_facts s.cfg
  have hi := h.indices
  obtain ⟨hvalid, hassigned, -⟩ := hi.slot_counts
  rw [State.rowsShown_of_showing hshow] at hvalid hassigned
  have hstart : v.toNat = addN s.cfg.rowSlots s.win.displayStart.toNat (s.rowsReleased + d) := by
    rw [hv, hi.validFrom_eq, addN_addN]
  have hreleased : State.rowsReleased { s with win.validFrom := v } = s.rowsReleased + d := by
    have hlt : s.rowsReleased + d < s.cfg.rowSlots := by omega
    exact (congrArg _ hstart).trans (distN_base hi.start_lt hlt)
  have hlt : v.toNat < s.cfg.rowSlots := hstart ▸ addN_lt (by omega) _ _
  have hrows : RowsKept d s { s with win.validFrom := v } := ⟨rfl, rfl, rfl, rfl, hv, by omega⟩
  obtain ⟨hhidden, hahead, hneeded, hearly, hready⟩ := h.phase
  obtain ⟨hoff, hheader, hwords, hsectors, hfetched, hplanned, hdone, hprepping, hreading, hfinished⟩ := h.cursors
  refine hrows.syncInv h ?indices
    ⟨hoff, hheader, hwords, hsectors, hfetched, hplanned, hdone, hprepping, hreading, hfinished⟩
    ⟨hhidden, hahead, hneeded, hearly, hready⟩ h.layout.base_lt h.layout.offset h.landing.header h.landing.slots
    fun a ha _ => ⟨ha, rfl, by omega⟩
  exact {
    start_lt := hi.start_lt
    from_lt := hlt
    planned := hi.planned
    validTo := hi.validTo
    landed_le := hi.landed_le
    ahead_le := hi.ahead_le
    released_lt := hreleased.trans_lt hd
    released_hidden := fun hhide => absurd (hshow.symm.trans hhide) (by decide)
    budget := hi.budget.trans (Nat.add_le_add_right (hreleased ▸ Nat.le_add_right _ _) _)
    nextStart := hi.nextStart
    pos0_lt := hi.pos0_lt
    pos1_lt := hi.pos1_lt
    armed_next := hi.armed_next }

/-- R410, R411: when all rows of the next frame have landed, DEC has counted its image. -/
theorem SyncInv.landed_state {s : State} (h : SyncInv s) (hlanded : s.rowsLanded = s.cfg.rows) :
    s.planning = true ∧ s.fsm.state.imageReading = false := by
  have hp := params_facts s.cfg
  have hplan : s.planning = true := by
    by_contra hnot
    rw [State.rowsLanded_of_not_planning (Bool.eq_false_iff.mpr hnot)] at hlanded
    omega
  refine ⟨hplan, Bool.eq_false_iff.mpr fun hread => ?_⟩
  obtain ⟨hro, -, -⟩ := h.cursors.header (s.planning_iff.mp hplan).1
  have hopen := h.cursors.reading hplan hread
  rw [h.cursors.words hplan] at hopen
  rw [State.rowsLanded_of_planning hplan] at hlanded
  have := State.rowsDone_lt_rows hro hopen
  omega

/-- A flip or a first show of a frame whose rows have all landed: the displayed frame's rows are released, and the next frame's are
the displayed ones. -/
theorem SyncInv.nextShown {s : State} (h : SyncInv s) (hlanded : s.rowsLanded = s.cfg.rows) : SyncInv s.nextShown := by
  have hp := params_facts s.cfg
  have hi := h.indices
  obtain ⟨hplan, hread⟩ := h.landed_state hlanded
  obtain ⟨hvalid, hneed⟩ := s.planning_iff.mp hplan
  have hahead : s.rowsAhead = s.cfg.rows := le_antisymm hi.ahead_le (hlanded ▸ hi.landed_le)
  have hrel := hi.released_le_shown
  obtain ⟨hcount, hassigned, -⟩ := hi.slot_counts
  have hstart := hi.nextStart hvalid
  have hfrom : s.next.startSlot.toNat = addN s.cfg.rowSlots s.win.validFrom.toNat (s.rowsShown - s.rowsReleased) := by
    rw [hstart, hi.validFrom_eq, addN_addN, Nat.add_sub_cancel' hrel]
  have hlt : s.next.startSlot.toNat < s.cfg.rowSlots := hstart ▸ addN_lt (by omega) _ _
  have hnoplan : s.nextShown.planning = false := State.planning_of_no_next rfl
  have hshown : s.nextShown.rowsShown = s.cfg.rows := rfl
  have hreleased : s.nextShown.rowsReleased = 0 := distN_self (Nat.zero_lt_of_lt hlt) _
  have hmove (n : Nat) : addN s.cfg.rowSlots s.next.startSlot.toNat n
      = addN s.cfg.rowSlots s.win.displayStart.toNat (s.rowsShown + n) := by rw [hstart, addN_addN]
  have hrows : RowsKept (s.rowsShown - s.rowsReleased) s s.nextShown := ⟨rfl, rfl, rfl, rfl, hfrom, by omega⟩
  refine hrows.syncInv h ?indices (.of_not_planning h.cursors.off_lt hnoplan fun hv => absurd hv Bool.false_ne_true) ?phase
    h.layout.base_lt (fun hv => absurd hv (by simp [hnoplan])) h.landing.header (fun j => ?slots)
    fun a ha _ => ⟨ha, rfl, by omega⟩
  case indices =>
    exact {
      start_lt := hlt
      from_lt := hlt
      planned := by
        rw [State.rowsAhead_of_not_planning hnoplan, hshown]
        exact hi.planned.trans (hahead ▸ (hmove _).symm)
      validTo := by
        rw [State.rowsLanded_of_not_planning hnoplan, hshown]
        exact hi.validTo.trans (hlanded ▸ (hmove _).symm)
      landed_le := by rw [State.rowsLanded_of_not_planning hnoplan]; exact Nat.zero_le _
      ahead_le := by rw [State.rowsAhead_of_not_planning hnoplan]; exact Nat.zero_le _
      released_lt := by rw [hreleased]; exact hp.1
      released_hidden := fun _ => hreleased
      budget := by
        rw [State.rowsAhead_of_not_planning hnoplan, hshown, hreleased]
        show s.cfg.rows + 0 ≤ 0 + (s.cfg.rowSlots - 1)
        omega
      nextStart := fun hv => absurd hv Bool.false_ne_true
      pos0_lt := hp.1
      pos1_lt := hp.1
      armed_next := fun ha => absurd ha Bool.false_ne_true }
  case phase =>
    refine ⟨fun hinit => ?_, fun hv => absurd hv Bool.false_ne_true, fun hneeds => ?_, fun _ => rfl,
      fun hv => absurd hv Bool.false_ne_true⟩
    · exact absurd hvalid (by simp [(h.phase.hidden hinit).2.1])
    · exact hneeds.elim (fun hn => absurd hn hneed) fun hr => absurd hr (by simp [State.nextShown, hread])
  case slots =>
    have hslot : s.nextShown.slot j = s.nextAudio.slot j := rfl
    rw [hslot, s.nextAudio_words]
    exact h.landing.slots j

end Sys2Proof.Machine
end

section
/-! PROOFS. The steps of DEC keep the invariant of the display-sync contract: those that leave the frames, the acceptance of a header,
the start of its image and the completion of a read (spec/41_decoder_fsm.md R280 to R297; spec/42_sg_planner.md R360). -/

namespace Sys2Proof.Machine

/-! ## Steps that leave the frames -/

/-- The step from `s` to `t` leaves the frames, the cursors, the slots' sizes and the read in flight. -/
theorem KeepsFrames.of_eq {s t : State} (hcfg : t.cfg = s.cfg := by rfl) (hrt : t.rt = s.rt := by rfl)
    (hwin : t.win = s.win := by rfl) (hcur : t.cur = s.cur := by rfl) (hhdr : t.hdr = s.hdr := by rfl)
    (hdsp : t.dsp = s.dsp := by rfl) (hearly : t.decShown = s.decShown := by rfl)
    (hvalid : t.next.valid = s.next.valid := by rfl) (hstart : t.next.startSlot = s.next.startSlot := by rfl)
    (hslots : ∀ k, (t.slot k).words = (s.slot k).words := by exact fun _ => rfl) (hdma : t.dma = s.dma := by rfl) :
    KeepsFrames s t :=
  ⟨hcfg, hrt, hwin, hcur, hhdr, hdsp, hearly, hvalid, hstart, fun k => .inl (hslots k), fun a ha _ => by
    unfold Lands at ha ⊢
    rwa [hdma] at ha⟩

/-- The step issues a read of one fragment that ends below RING. -/
theorem KeepsFrames.issue {s u : State} (k : KeepsFrames s u) {lba : Word} {n : Nat} {f : Frag}
    (hend : f.dest.toNat + 4 * f.words ≤ ringBase) : KeepsFrames s (u.issue lba n [f]) := by
  refine ⟨k.cfg, k.rt, k.win, k.cur, k.hdr, k.dsp, k.decShown, k.valid, k.startSlot, k.slots, fun a ha hring => ?_⟩
  obtain ⟨-, g, hg, -, -, hlt⟩ := ha
  obtain rfl := List.mem_singleton.mp hg
  obtain ⟨hlo, -⟩ := hring
  unfold ringBase at hend
  omega

/-- A transition of DEC's state. -/
theorem KeepsFrames.goto {s u : State} (k : KeepsFrames s u) (st : DecState) : KeepsFrames s (u.goto st) :=
  ⟨k.cfg, k.rt, k.win, k.cur, k.hdr, k.dsp, k.decShown, k.valid, k.startSlot, k.slots, k.lands⟩

/-- R282: the header read lands in HDRBUF. -/
theorem hdrFrag_end : (BitVec.ofNat 32 hdrBase : Word).toNat + 4 * 128 ≤ ringBase := by decide

/-- R290: the audio read of a header that passed check 8 lands in its slot's buffer. -/
theorem audFrag_end {p : Params} (k : Fin 2) {n : Nat} (h : n ≤ p.audioSlotWords) :
    (BitVec.ofNat 32 (audBase k) : Word).toNat + 4 * n ≤ ringBase := by
  have hp := params_facts p
  unfold audBase ringBase
  rw [BitVec.toNat_ofNat]
  omega

/-- R52: a write through `F` leaves in the next frame record whatever it leaves in `F`. -/
theorem State.setFrame_next_view {α : Type} (view : FrameRec → α) {s : State} {f : FrameRec} (h : view f = view s.frame) :
    view (s.setFrame f).next = view s.next := by
  unfold State.frame at h
  cases hd : s.decShown <;> simp_all

/-- A state of DEC that goes with no next frame. -/
theorem PhaseOk.no_next {s : State} (h : PhaseOk s) {st : DecState} (hst : s.fsm.state = st)
    (hno : st ≠ .needVideo ∧ st.imageReading = false ∧ st.imageDone = false) : s.next.valid = false := by
  obtain ⟨hneed, hread, hdone⟩ := hno
  refine Bool.eq_false_iff.mpr fun hv => ?_
  rcases h.ahead hv with hs | hs | hs <;> rw [hst] at hs
  · exact hneed hs
  · exact absurd hs (by simp [hread])
  · exact absurd hs (by simp [hdone])

section
variable {s t : State}

theorem State.adopt_keepsFrames (s : State) (found : List Stream) :
    KeepsFrames s (s.adopt found) ∧ ((s.adopt found).fsm.state = .error ∨ (s.adopt found).fsm.state = .newFrame) := by
  by_cases hfound : found = []
  · rw [hfound, s.adopt_of_none]
    exact ⟨.of_eq, .inl rfl⟩
  · rw [s.adopt_of_found hfound]
    exact ⟨.of_eq, .inr rfl⟩

theorem decInit_syncStep (h : SyncInv s) (hst : s.fsm.state = .init) (hd : decInit s = some t) : SyncStep s t := by
  obtain ⟨-, hnext, -⟩ := h.phase.hidden hst
  unfold decInit at hd
  split at hd
  · cases hd
  · split at hd <;> obtain rfl := Option.some.inj hd
    · obtain ⟨hkeeps, hto⟩ := s.adopt_keepsFrames s.foundStreams
      rcases hto with hto | hto <;> exact hkeeps.of_no_next h hnext hto fun _ => hst
    · have hkeeps : KeepsFrames s { s with fsm := { s.fsm with initPhase := true } } := .of_eq
      exact (hkeeps.issue hdrFrag_end).of_no_next h hnext (st := .init) hst fun _ => hst

theorem decNewFrame_syncStep (h : SyncInv s) (hd : decNewFrame s = some t) : SyncStep s t := by
  unfold decNewFrame at hd
  split at hd
  · cases hd
  next hno =>
    have hnext := Bool.eq_false_iff.mpr hno
    split at hd <;> obtain rfl := Option.some.inj hd <;>
      exact (KeepsFrames.of_eq (s := s)).of_no_next h hnext (st := .needHeader) rfl fun hi => by cases hi

theorem decNeedHeader_syncStep (h : SyncInv s) (hst : s.fsm.state = .needHeader) (hd : decNeedHeader s = some t) :
    SyncStep s t := by
  have hnext := h.phase.no_next hst (by decide)
  unfold decNeedHeader at hd
  split at hd
  · cases hd
  · obtain rfl := Option.some.inj hd
    exact (((KeepsFrames.of_eq (s := s)).issue hdrFrag_end).goto .readingHeader).of_no_next h hnext (st := .readingHeader) rfl
      fun hi => by cases hi

theorem State.formatError_keepsFrames (s : State) (v : Nat) : KeepsFrames s (s.formatError v) := by
  unfold State.formatError
  simp only []
  split <;> exact .of_eq

theorem State.formatError_syncStep (h : SyncInv s) (hst : s.fsm.state = .readingHeader) (v : Nat) :
    SyncStep s (s.formatError v) := by
  exact (s.formatError_keepsFrames v).of_no_next h (h.phase.no_next hst (by decide)) (st := .error) rfl fun hi => by cases hi

/-- The audio states leave the frames; a fully decoded frame is not ahead in any of them. -/
theorem KeepsFrames.of_audio {st st' : DecState} {u : State} (k : KeepsFrames s u) (hready : u.next.ready = s.next.ready)
    (h : SyncInv s) (hst : s.fsm.state = st) (hd : st.imageDone = true ∧ st ≠ .newFrame ∧ st ≠ .hitEnd)
    (hto : st'.imageDone = true := by decide) : SyncStep s (u.goto st') := by
  obtain ⟨hdone, hnew, hhit⟩ := hd
  refine (k.goto st').of_imageDone h (hst ▸ hdone) rfl (fun hv hr => ?_) hto
  have hwas := h.phase.ready (k.valid.symm.trans hv) (hready.symm.trans hr)
  rw [hst] at hwas
  exact absurd hwas (not_or.mpr ⟨hnew, hhit⟩)

theorem decAwaitAudioBuffer_syncStep (h : SyncInv s) (hst : s.fsm.state = .awaitAudioBuffer) (hd : decAwaitAudioBuffer s = some t) :
    SyncStep s t := by
  obtain ⟨k, -, rfl⟩ := Option.map_eq_some_iff.mp hd
  have hview {α : Type} (view : FrameRec → α) (slot : AudioSlot) (hf : view { s.frame with aslot := some k } = view s.frame) :
      view ((s.setSlot k slot).setFrame { s.frame with aslot := some k }).next = view s.next :=
    State.setFrame_next_view view (s := s.setSlot k slot) hf
  have hkeeps (slot : AudioSlot) (hwords : slot.words = s.hdr.audioWords) :
      KeepsFrames s ((s.setSlot k slot).setFrame { s.frame with aslot := some k }) := by
    refine ⟨rfl, rfl, rfl, rfl, rfl, rfl, rfl, hview (·.valid) slot rfl, hview (·.startSlot) slot rfl, fun j => ?_,
      fun _ ha _ => ha⟩
    by_cases hj : j = k
    · subst hj
      exact .inr ((congrArg AudioSlot.words (s.setSlot_slot j slot)).trans hwords)
    · exact .inl (congrArg AudioSlot.words (s.setSlot_slot_ne slot hj))
  exact (hkeeps _ rfl).of_audio (hview (·.ready) _ rfl) h hst (by decide)

theorem decNeedAudio_syncStep (h : SyncInv s) (hst : s.fsm.state = .needAudio) (hd : decNeedAudio s = some t) : SyncStep s t := by
  unfold decNeedAudio at hd
  split at hd
  · cases hd
  · rename_i k _
    have hend := audFrag_end k h.landing.header
    split at hd
    · cases hd
    · obtain rfl := Option.some.inj hd
      exact ((KeepsFrames.of_eq (s := s)).issue (f := ⟨_, _⟩) hend).of_audio rfl h hst (by decide)

/-- R292: queueing a processed buffer and handing it off changes the slots, the buffers and the outputs only. -/
theorem State.queueAudio_eq (s : State) (k : Fin 2) :
    ∃ a b o m, ((s.postProcess k).setSlot k { (s.postProcess k).slot k with state := .queued }).tryHandoff k =
      { s with slot0 := a, slot1 := b, env.emitted := o, mem := m } := by
  obtain ⟨a, b, o, hh⟩ := State.tryHandoff_eq
    ((s.postProcess k).setSlot k { (s.postProcess k).slot k with state := .queued }) k
  exact ⟨a, b, o, (s.postProcess k).mem, by rw [hh, s.postProcess_eq k]; rfl⟩

theorem State.queueAudio_words (s : State) (k j : Fin 2) :
    ((((s.postProcess k).setSlot k { (s.postProcess k).slot k with state := .queued }).tryHandoff k).slot j).words
      = (s.slot j).words := by
  rw [State.tryHandoff_words, ← s.postProcess_slot j k]
  exact State.setSlot_words _ (by rfl) j

theorem decPostProcessAudio_syncStep (h : SyncInv s) (hst : s.fsm.state = .postProcessAudio)
    (hd : decPostProcessAudio s = some t) : SyncStep s t := by
  unfold decPostProcessAudio at hd
  split at hd
  · cases hd
  · rename_i k _
    obtain rfl := Option.some.inj hd
    have hwords := s.queueAudio_words k
    obtain ⟨a, b, o, m, hq⟩ := s.queueAudio_eq k
    rw [hq] at hwords ⊢
    exact (KeepsFrames.of_eq (s := s) (hslots := hwords)).of_audio rfl h hst (by decide)

theorem decFrameReady_syncStep (h : SyncInv s) (hst : s.fsm.state = .frameReady) (hd : decFrameReady s = some t) :
    SyncStep s t := by
  have hview {α : Type} (view : FrameRec → α) (hf : view { s.frame with ready := true } = view s.frame) :
      view (s.setFrame { s.frame with ready := true }).next = view s.next := State.setFrame_next_view view hf
  have hvalid := hview (·.valid) rfl
  have hstart := hview (·.startSlot) rfl
  have hkeeps (q : Sequencing) : KeepsFrames s { s.setFrame { s.frame with ready := true } with seq := q } :=
    .of_eq (hvalid := hvalid) (hstart := hstart)
  have hdone : s.fsm.state.imageDone = true := hst ▸ rfl
  unfold decFrameReady at hd
  simp only [] at hd
  split at hd <;> obtain rfl := Option.some.inj hd
  · exact ((hkeeps _).goto .hitEnd).of_imageDone h hdone (st := .hitEnd) rfl fun _ _ => .inr rfl
  · exact ((hkeeps _).goto .newFrame).of_imageDone h hdone (st := .newFrame) rfl fun _ _ => .inl rfl

theorem decError_syncStep (h : SyncInv s) (hst : s.fsm.state = .error) (hd : decError s = some t) : SyncStep s t := by
  have hnext := h.phase.no_next hst (by decide)
  unfold decError at hd
  split at hd
  · split at hd
    · obtain rfl := Option.some.inj hd
      exact (KeepsFrames.of_eq (s := s)).of_no_next h hnext (st := .newFrame) rfl fun hi => by cases hi
    · cases hd
  · obtain rfl := Option.some.inj hd
    exact (KeepsFrames.of_eq (s := s)).of_no_next h hnext (st := .newFrame) rfl fun hi => by cases hi

/-! ## The header accepted (R284) -/

/-- The header checks that the invariant rests on. -/
theorem header_of_validate {p : Params} {cur : Word} {b : Nat → Byte} (h : validate p cur b = none) :
    rowTableOk p (parseHeader p b) = true ∧ (parseHeader p b).imageWords.toNat ≤ p.ringWords - 1
      ∧ 1 ≤ (parseHeader p b).imageWords.toNat ∧ (parseHeader p b).audioWords.toNat ≤ p.audioSlotWords := by
  have hchecks := (validate_eq_none_iff p cur b).mp h
  obtain ⟨hmin, hmax⟩ := hchecks 6 (by decide) (by decide)
  obtain ⟨-, haudio⟩ := hchecks 8 (by decide) (by decide)
  exact ⟨(rowTableOk_parseHeader_iff p cur b).mpr (hchecks 7 (by decide) (by decide)), hmax, hmin, haudio⟩

/-- The frame accepted begins where the planned slots end. -/
theorem State.accept_syncStep (h : SyncInv s) (hst : s.fsm.state = .readingHeader)
    (hvalid : validate s.cfg s.seq.curSector s.hdrByte = none) :
    SyncStep s (s.accept.goto .needVideo) := by
  obtain ⟨hro, hmax, hmin, haudio⟩ := header_of_validate hvalid
  have hplan : s.planning = false := State.planning_of_no_next (h.phase.no_next hst (by decide))
  have hplan' : (s.accept.goto .needVideo).planning = false := State.planning_of_needVideo rfl
  have hrows : RowsKept 0 s (s.accept.goto .needVideo) := .of_same h rfl rfl rfl rfl
  have hahead := State.rowsAhead_of_not_planning hplan
  refine .of_window ?_ rfl rfl
  refine hrows.syncInv h ?indices (.of_not_planning h.cursors.off_lt hplan' fun _ => ⟨hro, hmax, hmin⟩) ?phase h.layout.base_lt
    (fun hp => absurd hp (by simp [hplan'])) haudio h.landing.slots fun a ha _ => ⟨ha, rfl, Nat.zero_le _⟩
  case indices =>
    refine h.indices.of_same rfl rfl rfl ?_ ?_ (fun _ => ?_) h.indices.pos0_lt h.indices.pos1_lt
      fun ha => ⟨(h.indices.armed_next ha).1, rfl⟩
    · rw [hahead, State.rowsAhead_of_not_planning hplan']
    · rw [State.rowsLanded_of_not_planning hplan, State.rowsLanded_of_not_planning hplan']
    · have hplanned := h.indices.planned
      rwa [hahead] at hplanned
  case phase =>
    exact ⟨fun hi => (by cases hi), fun _ => .inl rfl, fun _ => rfl, fun he => absurd he Bool.false_ne_true,
      fun _ hr => absurd hr Bool.false_ne_true⟩

theorem decReadingHeader_syncStep (h : SyncInv s) (hst : s.fsm.state = .readingHeader) (hd : decReadingHeader s = some t) :
    SyncStep s t := by
  unfold decReadingHeader at hd
  split at hd
  · cases hd
  · split at hd <;> obtain rfl := Option.some.inj hd
    next hvalid => exact State.accept_syncStep h hst hvalid
    next => exact State.formatError_syncStep h hst _

/-! ## The image (R286, R288) -/

/-- The phase of DEC on the image of the next frame. -/
theorem PhaseOk.image {st : DecState} (h : PhaseOk s) (hs : s.fsm.state = .needVideo ∨ s.fsm.state.imageReading = true)
    (hnext : t.next = s.next) (hearly : t.decShown = s.decShown) (hst : t.fsm.state = st)
    (hto : st.imageReading = true ∨ st.imageDone = true) : PhaseOk t := by
  have hvalid := h.needed hs
  have hunready : s.next.ready = false := by
    refine Bool.eq_false_iff.mpr fun hr => ?_
    rcases h.ready hvalid hr with hwas | hwas <;> rw [hwas] at hs <;> exact absurd hs (by decide)
  refine ⟨fun hi => ?_, fun _ => hst ▸ .inr hto, fun _ => hnext ▸ hvalid, fun he => ?_, fun _ hr => ?_⟩
  · rw [hst] at hi
    rw [hi] at hto
    exact absurd hto (by decide)
  · exact absurd (h.shownEarly (hearly ▸ he)) (by simp [hvalid])
  · rw [hnext, hunready] at hr
    cases hr

theorem decNeedVideo_syncStep (h : SyncInv s) (hst : s.fsm.state = .needVideo) (hd : decNeedVideo s = some t) : SyncStep s t := by
  have hp := params_facts s.cfg
  have hvalid := h.phase.needed (.inl hst)
  obtain ⟨hro, hmax, hmin⟩ := h.cursors.header hvalid
  have hplan := State.planning_of_needVideo hst
  obtain ⟨hrows, hphase, hplan'⟩ : RowsKept 0 s t ∧ PhaseOk t ∧ t.planning = true := by
    obtain rfl := Option.some.inj hd
    exact ⟨.of_same h rfl rfl rfl rfl, h.phase.image (.inl hst) rfl rfl rfl (.inl rfl),
      (State.planning_iff _).mpr ⟨hvalid, DecState.noConfusion⟩⟩
  obtain rfl := Option.some.inj hd
  refine .of_window ?_ rfl rfl
  refine hrows.syncInv h ?indices ?cursors hphase h.cursors.off_lt ?offset h.landing.header h.landing.slots
    fun a ha _ => ⟨ha, rfl, Nat.zero_le _⟩
  case indices =>
    refine h.indices.of_same rfl rfl rfl ?_ ?_ h.indices.nextStart h.indices.pos0_lt h.indices.pos1_lt h.indices.armed_next
    · rw [State.rowsAhead_of_not_planning hplan]
      exact State.rowsAhead_of_planning hplan'
    · rw [State.rowsLanded_of_not_planning hplan]
      exact (State.rowsLanded_of_planning hplan').trans (State.rowsDone_zero hro)
  case cursors =>
    have hsectors : (BitVec.ofNat 16 ((s.hdr.imageWords.toNat + 127) / 128)).toNat = (s.hdr.imageWords.toNat + 127) / 128 := by
      rw [BitVec.toNat_ofNat]
      omega
    exact {
      off_lt := h.cursors.off_lt
      header := fun _ => ⟨hro, hmax, hmin⟩
      words := fun _ => rfl
      sectors := fun _ => hsectors
      fetched := fun _ => Nat.zero_le _
      planned := fun _ => by
        show 0 = s.rowsBefore (min 0 s.hdr.imageWords.toNat)
        rw [Nat.zero_min, s.rowsBefore_zero]
      done_le := fun _ => Nat.zero_le _
      prepping := fun _ _ => by
        show 0 < (BitVec.ofNat 16 _).toNat
        rw [hsectors]
        omega
      reading := fun _ _ => hmin
      finished := fun _ hr => (by cases hr) }
  case offset =>
    refine fun _ => Eq.symm ?_
    show addN s.cfg.ringWords s.cur.writeOff.toNat (min 0 s.hdr.imageWords.toNat) = s.cur.writeOff.toNat
    rw [Nat.zero_min, addN_zero h.cursors.off_lt]

end

end Sys2Proof.Machine
end

section
/-! PROOFS. The two steps of the image read keep the invariant of the display-sync contract: the batch that PREPPING_VIDEO commits and
issues, and its completion (spec/41_decoder_fsm.md R287, R288; spec/42_sg_planner.md R350 to R361). -/

namespace Sys2Proof.Machine

/-! ## The batch issued (R355 to R357) -/

/-- R287: the state after PREPPING_VIDEO commits and issues its batch. -/
def State.batchIssued (s : State) : State :=
  ((s.commit s.plan).issue s.batchLba s.plan.k s.plan.frags).goto .readingVideo

theorem decPreppingVideo_some {s t : State} (h : decPreppingVideo s = some t) : 1 ≤ s.planEnd.k ∧ t = s.batchIssued := by
  unfold decPreppingVideo State.planAndIssue at h
  split at h
  · cases h
  · split at h
    · cases h
    next hk =>
      obtain rfl := Option.some.inj h
      exact ⟨Nat.one_le_iff_ne_zero.mpr hk, rfl⟩

/-- PREPPING_VIDEO has a batch that is not empty. -/
structure BatchReady (s : State) : Prop where
  inv : SyncInv s
  state : s.fsm.state = .preppingVideo
  taken : 1 ≤ s.planEnd.k

section
variable {s : State}

theorem BatchReady.planning (b : BatchReady s) : s.planning = true := by
  refine s.planning_iff.mpr ⟨b.inv.phase.needed (.inr ?_), ?_⟩ <;> rw [b.state]
  · rfl
  · decide

theorem BatchReady.header (b : BatchReady s) :
    rowTableOk s.cfg s.hdr = true ∧ s.hdr.imageWords.toNat ≤ s.cfg.ringWords - 1 ∧ s.cur.imgWords = s.hdr.imageWords := by
  obtain ⟨hro, hmax, -⟩ := b.inv.cursors.header (s.planning_iff.mp b.planning).1
  exact ⟨hro, hmax, b.inv.cursors.words b.planning⟩

theorem BatchReady.fits (b : BatchReady s) : BatchFits s s.planEnd :=
  State.planEnd_fits b.inv.cursors.off_lt (b.inv.cursors.sectors b.planning) (b.inv.cursors.fetched b.planning)

/-- R354: the rows the frame's planned words start, before the batch and after it. -/
theorem BatchReady.rows (b : BatchReady s) :
    s.cur.rowsPlanned.toNat = s.rowsBefore (s.wordsTo s.cur.fetchSec.toNat)
      ∧ s.planEnd.rp = s.rowsBefore (s.wordsTo (s.cur.fetchSec.toNat + s.planEnd.k))
      ∧ s.cur.rowsPlanned.toNat ≤ s.planEnd.rp ∧ s.planEnd.rp ≤ s.cfg.rows := by
  have hplanned := b.inv.cursors.planned b.planning
  have hrp := b.fits.rp b.taken
  refine ⟨hplanned, hrp, ?_, hrp ▸ s.rowsBefore_le _⟩
  rw [hrp, hplanned]
  refine s.rowsBefore_mono ?_
  unfold State.wordsTo
  omega

/-- The batch takes words of the image, and they are free. -/
theorem BatchReady.words (b : BatchReady s) :
    s.wordsTo s.cur.fetchSec.toNat + s.planEnd.need = s.wordsTo (s.cur.fetchSec.toNat + s.planEnd.k) ∧ 1 ≤ s.planEnd.need
      ∧ s.depthOf s.slotsAssigned + s.planEnd.need < s.cfg.ringWords := by
  have hneed := b.fits.need
  have hwithin := b.fits.within
  have hfree := b.fits.free
  have htaken := b.taken
  have hsec := b.inv.cursors.sectors b.planning
  have hlt := b.inv.depthOf_lt s.slotsAssigned
  have hdepth := b.inv.indices.freeWords_eq
  refine ⟨hneed, ?_, by omega⟩
  unfold State.wordsTo at hneed
  omega

theorem BatchReady.slots (b : BatchReady s) :
    s.slotsAssigned + (s.planEnd.rp - s.cur.rowsPlanned.toNat) < s.cfg.rowSlots := by
  obtain ⟨-, -, hlt⟩ := b.inv.indices.slot_counts
  have hslots := b.fits.slots
  unfold State.freeSlots at hslots
  unfold State.slotsAssigned at *
  omega

/-! ### Its registers -/

theorem BatchReady.issued_rowsPlanned (b : BatchReady s) : s.batchIssued.cur.rowsPlanned.toNat = s.planEnd.rp := by
  have hp := params_facts s.cfg
  obtain ⟨-, -, -, hle⟩ := b.rows
  exact (BitVec.toNat_ofNat ..).trans (Nat.mod_eq_of_lt (by rw [s.plan_rp]; omega))

theorem BatchReady.issued_fetchSec (b : BatchReady s) :
    s.batchIssued.cur.fetchSec.toNat = s.cur.fetchSec.toNat + s.planEnd.k := by
  have hwithin := b.fits.within
  have hlt := s.cur.imgSectors.isLt
  exact (BitVec.toNat_ofNat ..).trans (Nat.mod_eq_of_lt (by rw [s.plan_k]; omega))

theorem BatchReady.issued_writeOff (b : BatchReady s) :
    s.batchIssued.cur.writeOff.toNat = addN s.cfg.ringWords s.cur.writeOff.toNat s.planEnd.need := by
  have hp := params_facts s.cfg
  have hlt := addN_lt (n := s.cfg.ringWords) (by omega) s.cur.writeOff.toNat s.planEnd.need
  have hwo : s.plan.wo = addN s.cfg.ringWords s.cur.writeOff.toNat s.planEnd.need := b.fits.wo
  exact (BitVec.toNat_ofNat ..).trans (by rw [hwo, Nat.mod_eq_of_lt (by omega)])

theorem BatchReady.issued_plannedTo (b : BatchReady s) :
    s.batchIssued.win.plannedTo.toNat =
      addN s.cfg.rowSlots s.win.displayStart.toNat (s.rowsShown + s.planEnd.rp) := by
  obtain ⟨-, -, hle, -⟩ := b.rows
  have hto : s.batchIssued.win.plannedTo.toNat
      = addN s.cfg.rowSlots s.win.plannedTo.toNat (s.planEnd.rp - s.cur.rowsPlanned.toNat) := toNat_ofNat_addN ..
  rw [hto, b.inv.indices.planned, addN_addN, State.rowsAhead_of_planning b.planning]
  congr 1
  omega

theorem BatchReady.issued_planning (b : BatchReady s) : s.batchIssued.planning = true :=
  (State.planning_iff _).mpr ⟨(s.planning_iff.mp b.planning).1, DecState.noConfusion⟩

theorem BatchReady.issued_rowsLanded (b : BatchReady s) : s.batchIssued.rowsLanded = s.rowsLanded := by
  rw [State.rowsLanded_of_planning b.planning]
  exact State.rowsLanded_of_planning b.issued_planning

theorem BatchReady.issued_rowsAhead (b : BatchReady s) : s.batchIssued.rowsAhead = s.planEnd.rp := by
  rw [State.rowsAhead_of_planning b.issued_planning, b.issued_rowsPlanned]

theorem BatchReady.issued_indices (b : BatchReady s) : IndicesOk s.batchIssued := by
  have hi := b.inv.indices
  have hahead := State.rowsAhead_of_planning b.planning
  obtain ⟨-, -, hle, hrows⟩ := b.rows
  exact {
    start_lt := hi.start_lt
    from_lt := hi.from_lt
    planned := by
      rw [b.issued_rowsAhead]
      exact b.issued_plannedTo
    validTo := by
      rw [b.issued_rowsLanded]
      exact hi.validTo
    landed_le := by
      rw [b.issued_rowsLanded, b.issued_rowsAhead]
      exact hi.landed_le.trans (hahead.trans_le hle)
    ahead_le := by
      rw [b.issued_rowsAhead]
      exact hrows
    released_lt := hi.released_lt
    released_hidden := hi.released_hidden
    budget := by
      rw [b.issued_rowsAhead]
      have hslots := b.slots
      obtain ⟨-, hassigned, -⟩ := hi.slot_counts
      have hrel := hi.released_le_shown
      show s.rowsShown + s.planEnd.rp ≤ s.rowsReleased + (s.cfg.rowSlots - 1)
      omega
    nextStart := hi.nextStart
    pos0_lt := hi.pos0_lt
    pos1_lt := hi.pos1_lt
    armed_next := hi.armed_next }

theorem BatchReady.issued_cursors (b : BatchReady s) : CursorsOk s.batchIssued := by
  have hc := b.inv.cursors
  have hplan := b.planning
  have hwritten := b.issued_writeOff
  obtain ⟨-, hrp, -, -⟩ := b.rows
  have hdone := hc.done_le hplan
  exact {
    off_lt := hwritten ▸ addN_lt (Nat.zero_lt_of_lt hc.off_lt) _ _
    header := hc.header
    words := fun _ => hc.words hplan
    sectors := fun _ => hc.sectors hplan
    fetched := fun _ => by
      rw [b.issued_fetchSec]
      exact b.fits.within
    planned := fun _ => by
      rw [b.issued_rowsPlanned, b.issued_fetchSec]
      exact hrp
    done_le := fun _ => by
      rw [b.issued_fetchSec]
      show s.cur.doneWords.toNat ≤ min (128 * (s.cur.fetchSec.toNat + s.planEnd.k)) s.cur.imgWords.toNat
      omega
    prepping := fun _ hs => (by cases hs)
    reading := fun _ _ => hc.reading hplan (by rw [b.state]; rfl)
    finished := fun _ hr => (by cases hr) }

/-! ### Where its rows lie -/

theorem BatchReady.issued_slotsAssigned (b : BatchReady s) :
    s.batchIssued.slotsAssigned = s.slotsAssigned + (s.planEnd.rp - s.cur.rowsPlanned.toNat) := by
  obtain ⟨-, hbefore, -⟩ := b.inv.indices.slot_counts
  obtain ⟨-, hafter, -⟩ := b.issued_indices.slot_counts
  obtain ⟨-, -, hle, -⟩ := b.rows
  have hrel := b.inv.indices.released_le_shown
  rw [b.issued_rowsAhead] at hafter
  rw [State.rowsAhead_of_planning b.planning] at hbefore
  have hafter : s.batchIssued.slotsAssigned = s.rowsShown + s.planEnd.rp - s.rowsReleased := hafter
  omega

/-- The slot of a row of the frame that the planner has not come to. -/
theorem BatchReady.rowSlot_eq (b : BatchReady s) {r : Nat} (hr : s.cur.rowsPlanned.toNat ≤ r) :
    s.rowSlot r = addN s.cfg.rowSlots s.win.validFrom.toNat (s.slotsAssigned + (r - s.cur.rowsPlanned.toNat)) := by
  have hi := b.inv.indices
  have hrel := hi.released_le_shown
  obtain ⟨-, hassigned, -⟩ := hi.slot_counts
  rw [State.rowsAhead_of_planning b.planning] at hassigned
  rw [State.rowSlot, hi.nextStart (s.planning_iff.mp b.planning).1, hi.validFrom_eq, addN_addN, addN_addN]
  congr 1
  omega

theorem BatchReady.rowOffset_old (b : BatchReady s) {i : Nat} (hi : i < s.slotsAssigned) :
    s.batchIssued.rowOffset (addN s.cfg.rowSlots s.win.validFrom.toNat i)
      = s.rowOffset (addN s.cfg.rowSlots s.win.validFrom.toNat i) := by
  have hslots := b.slots
  have hsame : s.batchIssued.rt[addN s.cfg.rowSlots s.win.validFrom.toNat i]?
      = s.rt[addN s.cfg.rowSlots s.win.validFrom.toNat i]? := by
    refine State.commit_otherSlot (b := s.plan) fun r hlo hhi => ?_
    rw [s.plan_rp] at hhi
    rw [b.rowSlot_eq hlo]
    exact addN_ne (by omega) (by omega)
  rw [State.rowOffset, State.rowOffset, List.getD, List.getD, hsame]

theorem BatchReady.rowOffset_new (b : BatchReady s) {r : Nat} (hlo : s.cur.rowsPlanned.toNat ≤ r) (hhi : r < s.planEnd.rp) :
    (s.batchIssued.rowOffset (s.rowSlot r)).toNat = 4 * addN s.cfg.ringWords s.cur.frameRingBase.toNat (s.hdr.roAt r) := by
  obtain ⟨-, -, -, hrows⟩ := b.rows
  obtain ⟨e, hentry, he⟩ := State.commit_rowOffset (b := s.plan) b.inv.layout.length hrows hlo hhi
  have hrt : s.batchIssued.rt[s.rowSlot r]? = some e := hentry
  rw [State.rowOffset, List.getD, hrt, Option.getD_some, he, addN]

/-- How far past the do-not-overwrite boundary the `i`-th assigned row begins once the batch is committed: the rows of the batch
follow the words planned before it. -/
def State.batchDepth (s : State) (i : Nat) : Nat :=
  if i < s.slotsAssigned then s.depthOf i
  else if i < s.slotsAssigned + (s.planEnd.rp - s.cur.rowsPlanned.toNat) then
    s.depthOf s.slotsAssigned
      + (s.hdr.roAt (s.cur.rowsPlanned.toNat + (i - s.slotsAssigned)) - s.wordsTo s.cur.fetchSec.toNat)
  else s.depthOf s.slotsAssigned + s.planEnd.need

/-- The rows not planned before the batch start at its words or after. -/
theorem BatchReady.wordsTo_le_roAt (b : BatchReady s) {r : Nat} (hlo : s.cur.rowsPlanned.toNat ≤ r) (hhi : r < s.cfg.rows) :
    s.wordsTo s.cur.fetchSec.toNat ≤ s.hdr.roAt r := by
  obtain ⟨hro, -, -⟩ := b.header
  obtain ⟨hplanned, -, -, -⟩ := b.rows
  refine Nat.not_lt.mp fun hlt => ?_
  have := (State.lt_rowsBefore_iff hro hhi).mpr hlt
  omega

theorem BatchReady.writeOff_eq (b : BatchReady s) :
    addN s.cfg.ringWords s.keepOff (s.depthOf s.slotsAssigned) = s.cur.writeOff.toNat := by
  rw [← b.inv.startOf_eq (Nat.le_refl _), b.inv.indices.startOf_assigned]

theorem BatchReady.issued_startOf (b : BatchReady s) {i : Nat} (hi : i ≤ s.batchIssued.slotsAssigned) :
    s.batchIssued.startOf i = addN s.cfg.ringWords s.keepOff (s.batchDepth i) := by
  have hassigned := b.issued_slotsAssigned
  obtain ⟨-, -, hle, hrows⟩ := b.rows
  unfold State.batchDepth
  split
  next hold =>
    rw [← b.inv.startOf_eq hold.le, b.inv.indices.startOf_entry hold, ← b.rowOffset_old hold]
    exact b.issued_indices.startOf_entry (by omega)
  next hold =>
    split
    next hnew =>
      obtain ⟨r, hr⟩ : ∃ r, r = s.cur.rowsPlanned.toNat + (i - s.slotsAssigned) := ⟨_, rfl⟩
      have hslot : addN s.cfg.rowSlots s.win.validFrom.toNat i = s.rowSlot r := by
        rw [b.rowSlot_eq (by omega)]
        congr 1
        omega
      have hstart : s.batchIssued.startOf i = (s.batchIssued.rowOffset (s.rowSlot r)).toNat / 4 :=
        hslot ▸ b.issued_indices.startOf_entry (by omega)
      have hwords := b.wordsTo_le_roAt (r := r) (by omega) (by omega)
      rw [← addN_addN, b.writeOff_eq, hstart, b.rowOffset_new (by omega) (by omega), Nat.mul_div_cancel_left _ (by decide),
        b.inv.layout.offset b.planning, addN_addN, ← hr]
      congr 1
      show _ = s.wordsTo s.cur.fetchSec.toNat + _
      omega
    next hnew =>
      obtain rfl : i = s.batchIssued.slotsAssigned := by omega
      rw [← addN_addN, b.writeOff_eq, b.issued_indices.startOf_assigned, b.issued_writeOff]

theorem BatchReady.batchDepth_rise (b : BatchReady s) {i : Nat} (hi : i < s.batchIssued.slotsAssigned) :
    s.batchDepth i < s.batchDepth (i + 1) := by
  have hassigned := b.issued_slotsAssigned
  obtain ⟨hro, -, -⟩ := b.header
  obtain ⟨-, hrp, hle, hrows⟩ := b.rows
  obtain ⟨hneed, hpos, -⟩ := b.words
  rcases Nat.lt_or_ge i s.slotsAssigned with hold | hnew
  · have hrise : s.depthOf i < s.depthOf (i + 1) := b.inv.layout.order i hold
    rcases Nat.lt_or_eq_of_le (Nat.succ_le_of_lt hold) with hnext | hnext
    · rwa [State.batchDepth, State.batchDepth, if_pos hold, if_pos hnext]
    · have hnext : i + 1 = s.slotsAssigned := hnext
      rw [State.batchDepth, State.batchDepth, if_pos hold, if_neg (by omega)]
      rw [hnext] at hrise ⊢
      split <;> omega
  · have hrow := b.wordsTo_le_roAt (r := s.cur.rowsPlanned.toNat + (i - s.slotsAssigned)) (by omega) (by omega)
    rw [State.batchDepth, State.batchDepth, if_neg (by omega), if_pos (by omega), if_neg (by omega)]
    split
    · have hrise := roAt_lt_of_lt hro (q := s.cur.rowsPlanned.toNat + (i - s.slotsAssigned))
        (r := s.cur.rowsPlanned.toNat + (i + 1 - s.slotsAssigned)) (by omega) (by omega)
      omega
    · have hlast : s.hdr.roAt (s.cur.rowsPlanned.toNat + (i - s.slotsAssigned))
          < s.wordsTo (s.cur.fetchSec.toNat + s.planEnd.k) :=
        (State.lt_rowsBefore_iff hro (by omega)).mp (by omega)
      omega

theorem BatchReady.batchDepth_last (b : BatchReady s) :
    s.batchDepth s.batchIssued.slotsAssigned = s.depthOf s.slotsAssigned + s.planEnd.need := by
  have hassigned := b.issued_slotsAssigned
  rw [State.batchDepth, if_neg (by omega), if_neg (by omega)]

theorem BatchReady.issued_layout (b : BatchReady s) : LayoutOk s.batchIssued := by
  have hp := params_facts s.cfg
  have hl := b.inv.layout
  obtain ⟨hneed, -, hturn⟩ := b.words
  refine ⟨?length, fun i hi => ?start, fun i hi => ?aligned,
    b.issued_indices.order_of_depths (base := s.keepOff) (depth := s.batchDepth) (fun i hi => b.issued_startOf hi)
      (fun i hi => b.batchDepth_rise hi) (b.batchDepth_last.trans_lt hturn), hl.base_lt, fun _ => ?offset⟩
  case length => exact (s.commitRows_length _ s.rt).trans hl.length
  case start =>
    rw [b.issued_startOf hi.le]
    exact addN_lt (n := s.cfg.ringWords) (by omega) _ _
  case aligned =>
    rcases Nat.lt_or_ge i s.slotsAssigned with hold | hnew
    · exact (congrArg (fun w : Word => w.toNat % 4) (b.rowOffset_old hold)).trans (hl.aligned i hold)
    · have hassigned := b.issued_slotsAssigned
      have hslot : addN s.cfg.rowSlots s.win.validFrom.toNat i
          = s.rowSlot (s.cur.rowsPlanned.toNat + (i - s.slotsAssigned)) := by
        rw [b.rowSlot_eq (by omega)]
        congr 1
        omega
      refine (congrArg (fun x => (s.batchIssued.rowOffset x).toNat % 4) hslot).trans ?_
      simp only [b.rowOffset_new (r := s.cur.rowsPlanned.toNat + (i - s.slotsAssigned)) (by omega) (by omega)]
      exact Nat.mul_mod_right 4 _
  case offset =>
    rw [b.issued_writeOff, hl.offset b.planning, addN_addN, b.issued_fetchSec]
    exact congrArg _ hneed

/-! ### Where it lands -/

/-- The rows of the valid window end before the batch's words: where all assigned rows have landed, the batch begins with a row. -/
theorem BatchReady.batchDepth_valid (b : BatchReady s) {j : Nat}
    (hj : j < distN s.cfg.rowSlots s.win.validFrom.toNat s.win.validTo.toNat) :
    s.batchDepth (j + 1) ≤ s.depthOf s.slotsAssigned := by
  have hi := b.inv.indices
  have hc := b.inv.cursors
  obtain ⟨hro, -, himage⟩ := b.header
  obtain ⟨hvalid, hassigned, -⟩ := hi.slot_counts
  have hle := hi.valid_le_assigned
  rcases Nat.lt_or_ge (j + 1) s.slotsAssigned with hold | hlast
  · rw [State.batchDepth, if_pos hold]
    exact b.inv.depthOf_mono hold.le (Nat.le_refl _)
  · -- every assigned row has landed, so the batch begins with the row after them
    have hlanded : s.rowsDone s.cur.doneWords.toNat = s.cur.rowsPlanned.toNat := by
      rw [← State.rowsLanded_of_planning b.planning, ← State.rowsAhead_of_planning b.planning]
      have hrel := hi.released_le_shown
      omega
    have hopen := hc.reading b.planning (by rw [b.state]; rfl)
    have hdone : s.cur.doneWords.toNat ≤ s.wordsTo s.cur.fetchSec.toNat := hc.done_le b.planning
    rw [himage] at hopen
    have hrow := State.rowsDone_lt_rows hro hopen
    have hends := State.roAt_rowsDone_le hro s.cur.doneWords.toNat
    rw [hlanded] at hrow hends
    obtain ⟨-, hrp, -, -⟩ := b.rows
    obtain ⟨hneed, hpos, -⟩ := b.words
    have hstarts : s.cur.rowsPlanned.toNat < s.planEnd.rp := by
      rw [hrp]
      exact (State.lt_rowsBefore_iff hro hrow).mpr (by omega)
    obtain heq : j + 1 = s.slotsAssigned := by omega
    rw [State.batchDepth, if_neg (by omega), if_pos (by omega), heq, Nat.sub_self, Nat.add_zero]
    omega

/-- The batch lands in the free words, past the rows of the valid window. -/
theorem BatchReady.issued_landing (b : BatchReady s) : LandingOk s.batchIssued := by
  refine ⟨b.inv.landing.header, b.inv.landing.slots, fun a ha hring j hj => ?_⟩
  have hle := b.inv.indices.valid_le_assigned
  have hassigned := b.issued_slotsAssigned
  obtain ⟨-, f, hf, hd, hlo, hhi⟩ := ha
  obtain ⟨d, hdlt, hdest⟩ := State.plan_word_free b.inv.cursors.off_lt (i := (a - f.dest.toNat) / 4) hf hd (by omega)
  have hword : (a - ringBase) / 4 = addN s.cfg.ringWords s.keepOff (s.depthOf s.slotsAssigned + d) := by
    rw [← addN_addN, b.writeOff_eq]
    omega
  have hfree := b.inv.indices.freeWords_eq
  have hj : j < distN s.cfg.rowSlots s.win.validFrom.toNat s.win.validTo.toNat := hj
  have hvalid := b.batchDepth_valid hj
  have hrise := b.batchDepth_rise (i := j) (by omega)
  rw [hword, b.issued_startOf (by omega), b.issued_startOf (by omega)]
  show distN s.cfg.ringWords _ _ ≤ distN s.cfg.ringWords _ _
  rw [distN_addN hrise.le (by omega), distN_addN (by omega) (by omega)]
  omega

theorem BatchReady.syncInv (b : BatchReady s) : SyncInv s.batchIssued := by
  have hreading : s.fsm.state.imageReading = true := by rw [b.state]; rfl
  exact ⟨b.issued_indices, b.issued_cursors, b.inv.phase.image (.inr hreading) rfl rfl rfl (.inl rfl), b.issued_layout,
    b.issued_landing⟩

/-! ## Its completion (R288, R360) -/

/-- R288: DEC goes on reading while sectors of the image are left, and to the states after it otherwise. -/
theorem State.afterVideo_imageReading_iff (s : State) :
    s.afterVideo.imageReading = true ↔ s.cur.fetchSec.toNat < s.cur.imgSectors.toNat := by
  unfold State.afterVideo
  split
  next hlt => exact iff_of_true rfl hlt
  next hge => split <;> exact iff_of_false (by decide) hge

theorem State.afterVideo_imageReading_or_done (s : State) :
    s.afterVideo.imageReading = true ∨ s.afterVideo.imageDone = true := by
  unfold State.afterVideo
  split
  · exact .inl rfl
  · split <;> exact .inr rfl

/-- R288: the state after READING_VIDEO counts its read. -/
def State.videoRead (s : State) : State := s.complete.goto s.afterVideo

/-- READING_VIDEO has the read of its batch complete. -/
structure ReadComplete (s : State) : Prop where
  inv : SyncInv s
  state : s.fsm.state = .readingVideo
  idle : s.dma.busy = false

theorem ReadComplete.imageReading (c : ReadComplete s) : s.fsm.state.imageReading = true := by
  rw [c.state]
  rfl

theorem ReadComplete.next (c : ReadComplete s) : s.next.valid = true := c.inv.phase.needed (.inr c.imageReading)

theorem ReadComplete.planning (c : ReadComplete s) : s.planning = true :=
  s.planning_iff.mpr ⟨c.next, by rw [c.state]; decide⟩

theorem ReadComplete.read_planning (c : ReadComplete s) : s.videoRead.planning = true := by
  refine (State.planning_iff _).mpr ⟨c.next, fun hneed => ?_⟩
  have hto := s.afterVideo_imageReading_or_done
  have hneed : s.afterVideo = .needVideo := hneed
  rw [hneed] at hto
  exact absurd hto (by decide)

theorem State.videoRead_doneWords (s : State) : s.videoRead.cur.doneWords.toNat = s.wordsTo s.cur.fetchSec.toNat :=
  s.complete_doneWords

theorem ReadComplete.read_rowsLanded (c : ReadComplete s) :
    s.videoRead.rowsLanded = s.rowsDone (s.wordsTo s.cur.fetchSec.toNat) :=
  (State.rowsLanded_of_planning c.read_planning).trans (congrArg s.rowsDone (State.videoRead_doneWords s))

theorem ReadComplete.read_rowsAhead (c : ReadComplete s) : s.videoRead.rowsAhead = s.rowsAhead := by
  rw [State.rowsAhead_of_planning c.planning]
  exact State.rowsAhead_of_planning c.read_planning

/-- A completion counts rows that were planned. -/
theorem ReadComplete.rowsDone_le_ahead (c : ReadComplete s) : s.rowsDone (s.wordsTo s.cur.fetchSec.toNat) ≤ s.rowsAhead := by
  obtain ⟨hro, -, -⟩ := c.inv.cursors.header c.next
  rw [State.rowsAhead_of_planning c.planning, c.inv.cursors.planned c.planning]
  exact State.rowsDone_le_rowsBefore hro (Nat.le_refl _)

theorem ReadComplete.read_validTo (c : ReadComplete s) :
    s.videoRead.win.validTo.toNat =
      addN s.cfg.rowSlots s.win.displayStart.toNat (s.rowsShown + s.rowsDone (s.wordsTo s.cur.fetchSec.toNat)) := by
  rw [← addN_addN, ← c.inv.indices.nextStart c.next]
  exact s.complete_validTo.trans (by rw [s.complete_doneWords]; rfl)

theorem ReadComplete.read_indices (c : ReadComplete s) : IndicesOk s.videoRead := by
  have hi := c.inv.indices
  exact {
    start_lt := hi.start_lt
    from_lt := hi.from_lt
    planned := by
      rw [c.read_rowsAhead]
      exact hi.planned
    validTo := by
      rw [c.read_rowsLanded]
      exact c.read_validTo
    landed_le := by
      rw [c.read_rowsLanded, c.read_rowsAhead]
      exact c.rowsDone_le_ahead
    ahead_le := by
      rw [c.read_rowsAhead]
      exact hi.ahead_le
    released_lt := hi.released_lt
    released_hidden := hi.released_hidden
    budget := by
      rw [c.read_rowsAhead]
      exact hi.budget
    nextStart := hi.nextStart
    pos0_lt := hi.pos0_lt
    pos1_lt := hi.pos1_lt
    armed_next := hi.armed_next }

theorem ReadComplete.read_cursors (c : ReadComplete s) : CursorsOk s.videoRead := by
  have hc := c.inv.cursors
  have hsec := hc.sectors c.planning
  have hfetched := hc.fetched c.planning
  have hdone : s.videoRead.cur.doneWords.toNat = min (128 * s.cur.fetchSec.toNat) s.cur.imgWords.toNat := s.complete_doneWords
  have hopen := s.afterVideo_imageReading_iff
  exact {
    off_lt := hc.off_lt
    header := hc.header
    words := fun _ => hc.words c.planning
    sectors := fun _ => hsec
    fetched := fun _ => hfetched
    planned := fun _ => hc.planned c.planning
    done_le := fun _ => hdone.le
    prepping := fun _ hs => hopen.mp (congrArg DecState.imageReading (hs : s.afterVideo = .preppingVideo))
    reading := fun _ hr => by
      have hlt := hopen.mp hr
      exact hdone.trans_lt (show _ < s.cur.imgWords.toNat by omega)
    finished := fun _ hr => by
      have hr : s.afterVideo.imageReading = false := hr
      have hge : ¬s.cur.fetchSec.toNat < s.cur.imgSectors.toNat := mt hopen.mpr (by simp [hr])
      exact ⟨BitVec.eq_of_toNat_eq (hdone.trans (show _ = s.cur.imgWords.toNat by omega)), BitVec.eq_of_toNat_eq (by
        show s.cur.fetchSec.toNat = s.cur.imgSectors.toNat
        omega)⟩ }

theorem ReadComplete.syncInv (c : ReadComplete s) : SyncInv s.videoRead := by
  have h := c.inv
  have hrows : RowsKept 0 s s.videoRead := ⟨rfl, rfl, rfl, rfl, (addN_zero h.indices.from_lt).symm, Nat.zero_le _⟩
  refine hrows.syncInv h c.read_indices c.read_cursors
    (h.phase.image (.inr c.imageReading) rfl rfl rfl s.afterVideo_imageReading_or_done) h.layout.base_lt
    (fun _ => h.layout.offset c.planning) h.landing.header h.landing.slots fun a ha _ => ?_
  obtain ⟨hbusy, -⟩ := ha
  exact absurd (c.idle.symm.trans hbusy) (by decide)

theorem decReadingVideo_some {s t : State} (h : decReadingVideo s = some t) : s.dma.busy = false ∧ t = s.videoRead := by
  unfold decReadingVideo at h
  split at h
  · cases h
  next hbusy =>
    obtain rfl := Option.some.inj h
    exact ⟨Bool.eq_false_iff.mpr hbusy, rfl⟩

end

end Sys2Proof.Machine
end

section
/-! PROOFS. Every step keeps the invariant of the display-sync contract and moves its indices forward, or resets
(spec/43_display_sync.md R413; spec/60_exceptions.md R505; spec/70_reset_and_hazards.md R551). -/

namespace Sys2Proof.Machine

/-! ## DEC's step -/

/-- A completion moves `valid_to` forward, over rows that were planned. -/
theorem ReadComplete.syncStep {s : State} (c : ReadComplete s) : SyncStep s s.videoRead := by
  have hp := params_facts s.cfg
  have hi := c.inv.indices
  have hfrom : s.videoRead.win.validFrom = s.win.validFrom := rfl
  have hmore : s.rowsLanded ≤ s.rowsDone (s.wordsTo s.cur.fetchSec.toNat) := by
    rw [State.rowsLanded_of_planning c.planning]
    exact s.rowsDone_mono (c.inv.cursors.done_le c.planning)
  have hplanned := c.rowsDone_le_ahead
  have hahead := hi.ahead_le
  refine ⟨c.syncInv, .inr ⟨?_, ?_⟩⟩
  · rw [hfrom, distN_self (by omega)]
    exact Nat.zero_le _
  · rw [c.read_validTo, hi.validTo, hi.planned, distN_addN (by omega) (by omega), distN_addN (by omega) (by omega)]
    omega

theorem decStep_syncStep {s t : State} (h : SyncInv s) (hd : decStep s = some t) : SyncStep s t := by
  replace hd := (decStep_some hd).2
  cases hst : s.fsm.state <;> simp only [decStateStep, hst] at hd
  case init => exact decInit_syncStep h hst hd
  case newFrame => exact decNewFrame_syncStep h hd
  case needHeader => exact decNeedHeader_syncStep h hst hd
  case readingHeader => exact decReadingHeader_syncStep h hst hd
  case needVideo => exact decNeedVideo_syncStep h hst hd
  case preppingVideo =>
    obtain ⟨htaken, rfl⟩ := decPreppingVideo_some hd
    exact .of_window (BatchReady.mk h hst htaken).syncInv rfl rfl
  case readingVideo =>
    obtain ⟨hidle, rfl⟩ := decReadingVideo_some hd
    exact (ReadComplete.mk h hst hidle).syncStep
  case awaitAudioBuffer => exact decAwaitAudioBuffer_syncStep h hst hd
  case needAudio => exact decNeedAudio_syncStep h hst hd
  case readingAudio =>
    unfold decReadingAudio at hd
    split at hd
    · cases hd
    · obtain rfl := Option.some.inj hd
      exact (KeepsFrames.of_eq (s := s) (t := s)).of_audio rfl h hst (by decide)
  case postProcessAudio => exact decPostProcessAudio_syncStep h hst hd
  case audioReady =>
    obtain rfl := Option.some.inj hd
    exact (KeepsFrames.of_eq (s := s) (t := s)).of_audio rfl h hst (by decide)
  case frameReady => exact decFrameReady_syncStep h hst hd
  case hitEnd =>
    obtain rfl := Option.some.inj hd
    have hkeeps : KeepsFrames s (s.raise .hitEnd) := .of_eq
    exact (hkeeps.goto .newFrame).of_imageDone h (by rw [hst]; rfl) (st := .newFrame) rfl fun _ _ => .inl rfl
  case error => exact decError_syncStep h hst hd

/-! ## The resets -/

/-- A cleared window with no frames holds no rows. -/
theorem SyncInv.of_cleared {t : State} (hcleared : WindowCleared t) (hrt : t.rt = List.replicate t.cfg.rowSlots 0)
    (hoff : t.cur.writeOff = 0) (hbase : t.cur.frameRingBase = 0) (hnext : t.next.valid = false) (hearly : t.decShown = false)
    (hpos0 : t.dsp.pos0 = 0) (hpos1 : t.dsp.pos1 = 0) (harmed : t.dsp.armed = false)
    (header : t.hdr.audioWords.toNat ≤ t.cfg.audioSlotWords) (slots : ∀ k, (t.slot k).words.toNat ≤ t.cfg.audioSlotWords) :
    SyncInv t := by
  have hp := params_facts t.cfg
  obtain ⟨hst, hwin, hshow⟩ := hcleared
  have hplan := State.planning_of_no_next hnext
  have hshown := State.rowsShown_of_hidden hshow
  have hahead := State.rowsAhead_of_not_planning hplan
  have hlanded := State.rowsLanded_of_not_planning hplan
  have hslots : 0 < t.cfg.rowSlots := by omega
  have hring : 0 < t.cfg.ringWords := by omega
  have hfrom : t.win.validFrom.toNat = 0 := by rw [hwin]; rfl
  have hto : t.win.validTo.toNat = 0 := by rw [hwin]; rfl
  have hstart : t.win.displayStart.toNat = 0 := by rw [hwin]; rfl
  have hplanned : t.win.plannedTo.toNat = 0 := by rw [hwin]; rfl
  have hwritten : t.cur.writeOff.toNat = 0 := by rw [hoff]; rfl
  have hreleased : t.rowsReleased = 0 := by rw [State.rowsReleased, hstart, hfrom, distN_self hslots]
  have hassigned : t.slotsAssigned = 0 := by rw [State.slotsAssigned, hfrom, hplanned, distN_self hslots]
  have hindices : IndicesOk t := by
    constructor <;> simp only [hfrom, hto, hstart, hplanned, hshown, hahead, hlanded, hreleased, hshow, hnext, hpos0, hpos1, harmed,
      Nat.add_zero, addN_zero hslots, le_refl, Bool.false_eq_true, false_implies, implies_true]
    case start_lt | from_lt => exact hslots
    case ahead_le | budget => exact Nat.zero_le _
    case released_lt | pos0_lt | pos1_lt => exact hp.1
  refine ⟨hindices, .of_not_planning (hwritten ▸ hring) hplan fun hv => absurd hv (by simp [hnext]), ?phase, ?layout, header,
    slots, ?apart⟩
  case phase =>
    refine ⟨fun _ => ⟨hshow, hnext, hearly⟩, fun hv => absurd hv (by simp [hnext]), fun hneeds => ?_, fun _ => hnext,
      fun hv => absurd hv (by simp [hnext])⟩
    rw [hst] at hneeds
    exact absurd hneeds (by decide)
  case layout =>
    have hnone {P : Prop} {i : Nat} (hi : i < t.slotsAssigned) : P := absurd hi (by omega)
    refine ⟨by rw [hrt, List.length_replicate], fun _ => hnone, fun _ => hnone, fun _ => hnone, ?_,
      fun hv => absurd hv (by simp [hplan])⟩
    rw [hbase]
    exact hring
  case apart =>
    intro a _ _ j hj
    rw [hfrom, hto, distN_self hslots] at hj
    exact absurd hj (Nat.not_lt_zero j)

theorem AudioSlot.afterDesync_words_le (v : AudioSlot) : v.afterDesync.words.toNat ≤ v.words.toNat := by
  unfold AudioSlot.afterDesync
  split
  · exact Nat.le_refl _
  · exact Nat.zero_le _

theorem State.desyncReset_syncStep {s : State} (h : SyncInv s) (e : Event) : SyncStep s (s.desyncReset e) := by
  have hcleared : WindowCleared (s.desyncReset e) := ⟨rfl, rfl, rfl⟩
  refine ⟨.of_cleared hcleared rfl rfl rfl rfl rfl rfl rfl rfl h.landing.header fun k => ?_, .inl hcleared⟩
  have hslot : (s.desyncReset e).slot k = (s.slot k).afterDesync := by
    unfold State.slot
    split <;> rfl
  rw [hslot]
  exact (AudioSlot.afterDesync_words_le _).trans (h.landing.slots k)

theorem State.softReset_syncStep (s : State) : SyncStep s s.softReset := by
  have hcleared : WindowCleared s.softReset := ⟨rfl, rfl, rfl⟩
  refine ⟨.of_cleared hcleared rfl rfl rfl rfl rfl rfl rfl rfl (Nat.zero_le _) fun k => ?_, .inl hcleared⟩
  have hslot : s.softReset.slot k = AudioSlot.none := by
    unfold State.slot
    split <;> rfl
  rw [hslot]
  exact Nat.zero_le _

/-! ## The display port -/

section
variable {s t u : State}

/-- The invariant does not read the model's own environment. -/
theorem SyncInv.withEnv (h : SyncInv s) (e : Env) : SyncInv { s with env := e } :=
  have hkeeps : KeepsFrames s { s with env := e } := .of_eq
  (hkeeps.of_state h rfl rfl).inv

theorem SyncStep.respond (h : SyncStep s u) (w : Word) : SyncStep s (u.respond w) := ⟨h.inv.withEnv _, h.window⟩

/-- R405: rows are released up to the lowest consumer position, which is a row of the displayed frame. -/
theorem State.release_syncStep (h : SyncInv s) (hshow : s.dsp.showing = true) : SyncStep s s.release := by
  have hp := params_facts s.cfg
  have hi := h.indices
  have hpos0 := hi.pos0_lt
  have hcand : distN s.cfg.rowSlots s.win.displayStart.toNat s.releaseSlot = min s.dsp.pos0.toNat s.dsp.pos1.toNat :=
    distN_base hi.start_lt (by omega)
  rcases Nat.lt_or_ge s.rowsReleased (distN s.cfg.rowSlots s.win.displayStart.toNat s.releaseSlot) with hfar | hnear
  · obtain ⟨d, hd⟩ : ∃ d, s.rowsReleased + d = min s.dsp.pos0.toNat s.dsp.pos1.toNat :=
      ⟨min s.dsp.pos0.toNat s.dsp.pos1.toNat - s.rowsReleased, by omega⟩
    have hv : s.release.win.validFrom.toNat = addN s.cfg.rowSlots s.win.validFrom.toNat d := by
      rw [State.release_of_farther hfar, hi.validFrom_eq, addN_addN, hd]
      rfl
    obtain ⟨hvalid, -, -⟩ := hi.slot_counts
    rw [State.rowsShown_of_showing hshow] at hvalid
    have hto : s.release.win.validTo = s.win.validTo := by rw [s.release_eq]
    refine ⟨?_, .inr ⟨?_, ?_⟩⟩
    · rw [s.release_eq]
      exact h.withValidFrom hshow hv (by omega)
    · rw [hv, distN_base hi.from_lt (by omega), hvalid]
      omega
    · rw [hto, distN_self (by omega)]
      exact Nat.zero_le _
  · rw [State.release_of_not_farther hnear]
    exact .of_window h rfl rfl

theorem State.advanced_syncStep (h : SyncInv s) (sel : Byte) {row : Half} (hrow : RowVisible s row.toNat) :
    SyncStep s (s.advanced sel row) := by
  obtain ⟨hshow, hlt, -⟩ := hrow
  have hpos0 := h.indices.pos0_lt
  have hpos1 := h.indices.pos1_lt
  have hplaced : SyncInv (s.setPos (unitOf sel) row) := by
    refine h.withDisplay (d := (s.setPos (unitOf sel) row).dsp) rfl ?_ ?_ h.indices.armed_next
    · rw [State.setPos_dsp]
      split <;> assumption
    · rw [State.setPos_dsp]
      split <;> assumption
  unfold State.advanced
  split
  · obtain ⟨hinv, hwindow⟩ := State.release_syncStep hplaced hshow
    exact ⟨hinv, hwindow⟩
  · exact .of_window hplaced rfl rfl

theorem execDAdvance_syncStep {sel : Byte} {row : Half} (h : SyncInv s) (hx : exec (.dAdvance sel row) s = .next t) :
    SyncStep s t := by
  by_cases hrow : RowVisible s row.toNat
  · rw [exec_dAdvance_eq_advanced sel hrow] at hx
    obtain rfl := Host.Outcome.next.inj hx
    exact (State.advanced_syncStep h sel hrow).respond _
  · cases hshow : s.dsp.showing with
    | false =>
      rw [exec_dAdvance_before_show sel row hshow] at hx
      obtain rfl := Host.Outcome.next.inj hx
      exact (SyncStep.of_window h rfl rfl).respond 0
    | true =>
      rw [exec_dAdvance_of_hidden sel hshow hrow] at hx
      obtain rfl := Host.Outcome.next.inj hx
      exact (State.desyncReset_syncStep h .desyncRow).respond 0

/-- R410: a next frame whose rows are all in the valid window has all landed. -/
theorem SyncInv.landed_of_flipFits (h : SyncInv s) (hvalid : s.next.valid = true) (hfits : FlipFits s) :
    s.rowsLanded = s.cfg.rows := by
  have hp := params_facts s.cfg
  have hi := h.indices
  have hrel := hi.released_le_shown
  have hbudget := hi.budget
  obtain ⟨hcount, -, hlt⟩ := hi.slot_counts
  have hshown := s.rowsShown_le
  unfold FlipFits at hfits
  rw [hi.nextStart hvalid, hi.dist_validFrom hrel (by omega), hcount] at hfits
  have hlanded := hi.landed_le
  have hahead := hi.ahead_le
  omega

/-- R411: so have those of a fully decoded frame. -/
theorem SyncInv.landed_of_ready (h : SyncInv s) (hvalid : s.next.valid = true) (hready : s.next.ready = true) :
    s.rowsLanded = s.cfg.rows := by
  have hst := h.phase.ready hvalid hready
  obtain ⟨hro, -, -⟩ := h.cursors.header hvalid
  have hplan : s.planning = true := s.planning_iff.mpr ⟨hvalid, by rcases hst with hst | hst <;> rw [hst] <;> decide⟩
  obtain ⟨hdone, -⟩ := h.cursors.finished hplan (by rcases hst with hst | hst <;> rw [hst] <;> rfl)
  rw [State.rowsLanded_of_planning hplan, hdone, h.cursors.words hplan, State.rowsDone_imageWords hro]

theorem State.nextShown_syncStep (h : SyncInv s) (hvalid : s.next.valid = true) (hlanded : s.rowsLanded = s.cfg.rows) :
    SyncStep s s.nextShown := by
  have hp := params_facts s.cfg
  have hi := h.indices
  have hrel := hi.released_le_shown
  obtain ⟨hcount, -, -⟩ := hi.slot_counts
  have hshown := s.rowsShown_le
  refine ⟨h.nextShown hlanded, .inr ⟨?_, ?_⟩⟩
  · show distN _ _ s.next.startSlot.toNat ≤ _
    rw [hi.nextStart hvalid, hi.dist_validFrom hrel (by omega), hcount]
    omega
  · show distN _ s.win.validTo.toNat s.win.validTo.toNat ≤ _
    rw [distN_self (by omega)]
    exact Nat.zero_le _

/-- The last lines of a tick. -/
theorem State.endTick_syncStep (h : SyncInv s) (n : BitVec 8) : SyncStep s (State.endTick { s with dsp.holdCtr := n }) := by
  have hp := params_facts s.cfg
  refine .of_window (h.withDisplay rfl hp.1 hp.1 fun harmed => ?_) rfl rfl
  obtain ⟨hshow, -, -, hvalid, -⟩ := (State.endTick_armed_iff _).mp harmed
  exact ⟨hshow, hvalid⟩

theorem execDTick_syncStep (h : SyncInv s) (hx : exec .dTick s = .next t) : SyncStep s t := by
  cases harmed : s.dsp.armed with
  | true =>
    obtain ⟨hshow, hvalid⟩ := h.indices.armed_next harmed
    by_cases hfits : FlipFits s
    · rw [exec_dTick_of_flip harmed hshow hfits] at hx
      obtain rfl := Host.Outcome.next.inj hx
      exact State.nextShown_syncStep h hvalid (h.landed_of_flipFits hvalid hfits)
    · rw [exec_dTick_of_underrun harmed hfits] at hx
      obtain rfl := Host.Outcome.next.inj hx
      exact State.desyncReset_syncStep h .desyncUnderrun
  | false =>
    cases hshow : s.dsp.showing with
    | true =>
      by_cases hp : PausedEff s
      · rw [exec_dTick_of_paused harmed hshow hp] at hx
        obtain rfl := Host.Outcome.next.inj hx
        exact State.endTick_syncStep h s.dsp.holdCtr
      · rw [exec_dTick_of_countdown harmed hshow hp] at hx
        obtain rfl := Host.Outcome.next.inj hx
        exact State.endTick_syncStep h _
    | false =>
      by_cases hnext : s.next.valid = true ∧ s.next.ready = true
      · obtain ⟨hvalid, hready⟩ := hnext
        rw [exec_dTick_of_firstShow harmed hshow hvalid hready] at hx
        obtain rfl := Host.Outcome.next.inj hx
        exact State.nextShown_syncStep h hvalid (h.landed_of_ready hvalid hready)
      · rw [exec_dTick_of_nothing harmed hshow hnext] at hx
        obtain rfl := Host.Outcome.next.inj hx
        exact State.endTick_syncStep h s.dsp.holdCtr

/-! ## Every operation -/

theorem execSetSpeed_syncStep {arg : Half} (h : SyncInv s) (hx : execSetSpeed arg s = .next t) : SyncStep s t := by
  unfold execSetSpeed at hx
  split at hx <;> obtain rfl := Host.Outcome.next.inj hx <;> exact (KeepsFrames.of_eq (s := s)).of_state h rfl rfl

theorem execADone_syncStep {sel : Byte} (h : SyncInv s) (hx : execADone sel s = .next t) : SyncStep s t := by
  obtain rfl := Host.Outcome.next.inj hx
  split
  · exact (KeepsFrames.of_eq (s := s) (hslots := s.setSlot_words (by rfl))).of_state h rfl rfl
  · exact (KeepsFrames.of_eq (s := s)).of_state h rfl rfl

theorem exec_syncStep {i : Instr} (h : SyncInv s) (hx : exec i s = .next t) : SyncStep s t := by
  have override {c : Prop} [Decidable c] {u : State} (hu : SyncStep s u) : SyncStep s (if c then u else s) := by
    split
    · exact hu
    · exact .of_window h rfl rfl
  have stepTo (x : Word) : SyncStep s (s.stepTo x) := (KeepsFrames.of_eq (s := s)).of_state h rfl rfl
  have switch (k : Nat) : SyncStep s (s.switchStream k) := (KeepsFrames.of_eq (s := s)).of_state h rfl rfl
  cases i
  case dAdvance => exact execDAdvance_syncStep h hx
  case dTick => exact execDTick_syncStep h hx
  case setSpeed => exact execSetSpeed_syncStep h hx
  case aDone => exact execADone_syncStep h hx
  all_goals obtain rfl := Host.Outcome.next.inj hx
  case dQvalid | dQoffset => exact (SyncStep.of_window h rfl rfl).respond _
  case nop => exact .of_window h rfl rfl
  case playPause | toggleDir | volUp | volDown => exact (KeepsFrames.of_eq (s := s)).of_state h rfl rfl
  case stepFwd | stepBack => exact override (stepTo _)
  case nextStream | prevStream => exact override (switch _)

/-! ## Every turn -/

theorem State.writeReg_syncStep (h : SyncInv s) (off : Nat) (v : Word) : SyncStep s (s.writeReg off v) := by
  unfold State.writeReg
  split
  · split
    · exact s.softReset_syncStep
    · exact (KeepsFrames.of_eq (s := s)).of_state h rfl rfl
  all_goals exact (KeepsFrames.of_eq (s := s)).of_state h rfl rfl

theorem State.storLand_syncStep (h : SyncInv s) (n : Nat) : SyncStep s (s.storLand n) := by
  rw [s.storLand_eq n]
  exact KeepsFrames.of_state (s := s)
    ⟨rfl, rfl, rfl, rfl, rfl, rfl, rfl, rfl, rfl, fun _ => .inl rfl, fun _ ha _ => ha⟩ h rfl rfl

theorem State.storComplete_syncStep (h : SyncInv s) : SyncStep s s.storComplete := by
  have hbusy := s.storComplete_busy
  rw [s.storComplete_eq]
  exact KeepsFrames.of_state (s := s)
    ⟨rfl, rfl, rfl, rfl, rfl, rfl, rfl, rfl, rfl, fun _ => .inl rfl, fun _ ha _ => ha.imp_left hbusy⟩ h rfl rfl

theorem State.runTurn_syncStep {turn : Turn} (h : SyncInv s) (ht : s.runTurn turn = .next t) : SyncStep s t := by
  refine State.runTurn_cases (P := SyncStep s) ht
    (hold := fun _ _ => .of_window h rfl rfl) (dec := fun _ _ => decStep_syncStep h) (writeReg := State.writeReg_syncStep h)
    (writeError := (KeepsFrames.of_eq (s := s)).of_state h rfl rfl)
    (run := fun _ _ _ _ _ _ => exec_syncStep h) (runDisplay := fun _ _ c _ _ hx => ?display)
    (illegal := fun _ => (KeepsFrames.of_eq (s := s)).of_state h rfl rfl)
    (illegalDisplay := fun _ _ => (KeepsFrames.of_eq (s := s)).of_state h rfl rfl)
    (busRead := fun r addr size => ?busRead) (land := State.storLand_syncStep h) (complete := State.storComplete_syncStep h)
  case display =>
    obtain ⟨hinv, hwindow⟩ := exec_syncStep (h.withEnv _) hx
    exact ⟨hinv, hwindow⟩
  case busRead =>
    rw [s.busRead_eq]
    exact (KeepsFrames.of_eq (s := s)).of_state h rfl rfl

theorem step_syncStep (h : SyncInv s) (ht : step s = .next t) : SyncStep s t := by
  rw [step_eq, s.turnTaken_eq] at ht
  obtain ⟨hinv, hwindow⟩ := State.runTurn_syncStep (h.withEnv _) ht
  exact ⟨hinv, hwindow⟩

end

/-- Settles O56: DEC's step, the resets, the display operations and every other step leave the invariant. -/
theorem syncContractIsKept : Obligations.SyncContractIsKept := fun _ _ h ht => (step_syncStep h ht).inv

/-- Settles O59: a step clears the window or moves it forward. -/
theorem indicesMoveForward : Obligations.IndicesMoveForward := fun _ _ h ht => (step_syncStep h ht).window

end Sys2Proof.Machine
end

section
/-! PROOFS. The audio slots and samples: the handoff of a buffer, the gain, the pass over sector pairs and the return of a slot
(spec/44_audio.md R451 to R456). -/

namespace Sys2Proof.Machine

/-! ## Handoff (R454, R455) -/

theorem AudioSlot.eligible_iff (v : AudioSlot) : v.eligible = true ↔ v.state = .queued ∧ v.shown = true ∧ v.given = false := by
  simp only [AudioSlot.eligible, Bool.and_eq_true, beq_iff_eq, Bool.not_eq_true', and_assoc]

theorem State.tryHandoff_of_not_eligible {s : State} {k : Fin 2} (h : ¬(s.slot k).eligible = true) : s.tryHandoff k = s := if_neg h

theorem State.tryHandoff_of_silent {s : State} {k : Fin 2} (h : (s.slot k).eligible = true)
    (hsilent : s.ctl.paused = true ∨ (s.slot k).audible = false) :
    s.tryHandoff k = s.setSlot k { s.slot k with state := .empty, shown := false } := by
  rw [State.tryHandoff, if_pos h, if_pos]
  simpa using hsilent

theorem State.tryHandoff_of_heard {s : State} {k : Fin 2} (h : (s.slot k).eligible = true)
    (hplaying : s.ctl.paused = false) (haudible : (s.slot k).audible = true) :
    s.tryHandoff k = (s.setSlot k { s.slot k with given := true }).emit
      (.give k (BitVec.ofNat 32 (audBase k)) (s.slot k).words) := by
  rw [State.tryHandoff, if_pos h, hplaying, haudible]
  rfl

theorem State.tryHandoff_slot_other (s : State) (k : Fin 2) : (s.tryHandoff k).slot (1 - k) = s.slot (1 - k) := by
  rcases s.tryHandoff_cases k with ⟨-, h⟩ | ⟨-, -, h⟩ | ⟨-, -, h⟩ <;> rw [h]
  · exact s.setSlot_slot_other k _
  · exact s.setSlot_slot_other k _

/-- R101: the address of a slot's buffer fits a word. -/
theorem toNat_ofNat_audBase (k : Fin 2) : (BitVec.ofNat 32 (audBase k)).toNat = 0x100000 * (k.val + 1) := by
  rw [audBase, BitVec.toNat_ofNat]
  omega

/-- Settles O24: the three outcomes of `TryHandoff`, each under its own condition. -/
theorem handoffGivesOrDiscards : Obligations.HandoffGivesOrDiscards := by
  intro s k
  rw [← AudioSlot.eligible_iff]
  refine ⟨s.tryHandoff_slot_other k, ?frame, fun h => ⟨fun hsilent => ?discarded, fun ⟨hplaying, haudible⟩ => ?given⟩,
    State.tryHandoff_of_not_eligible⟩
  case frame =>
    obtain ⟨a, b, o, h⟩ := s.tryHandoff_eq k
    rw [h]
  case discarded =>
    rw [State.tryHandoff_of_silent h hsilent]
    exact ⟨s.setSlot_slot k _, rfl⟩
  case given =>
    rw [State.tryHandoff_of_heard h hplaying haudible]
    exact ⟨s.setSlot_slot k _, _, toNat_ofNat_audBase k, rfl⟩

/-! ## Gain (R453) -/

/-- The gain is the floor of `x * (g + 1) / 256`. -/
theorem gain1_floor (x : Int) (g : Nat) : 256 * gain1 x g ≤ x * (g + 1) ∧ x * (g + 1) < 256 * (gain1 x g + 1) := by
  unfold gain1
  omega

/-- A gain of at most unity leaves a sample between itself and 0. -/
theorem gain1_between (x : Int) {g : Nat} (hg : g ≤ 255) : min x 0 ≤ gain1 x g ∧ gain1 x g ≤ max x 0 := by
  obtain ⟨hle, hlt⟩ := gain1_floor x g
  rcases Int.le_total 0 x with hx | hx
  · have hlow : 0 ≤ x * (g + 1) := Int.mul_nonneg hx (by omega)
    have hhigh : x * (g + 1) ≤ x * 256 := Int.mul_le_mul_of_nonneg_left (by omega) hx
    omega
  · have hlow : x * 256 ≤ x * (g + 1) := Int.mul_le_mul_of_nonpos_left hx (by omega)
    have hhigh : x * (g + 1) ≤ 0 := Int.mul_nonpos_of_nonpos_of_nonneg hx (by omega)
    omega

/-- R453: the gain of a 16-bit sample fits 16 bits. -/
theorem toInt_ofInt_gain1 (x : Half) (g : BitVec 8) :
    (BitVec.ofInt 16 (gain1 x.toInt g.toNat)).toInt = gain1 x.toInt g.toNat := by
  have hlow := x.le_toInt
  have hhigh := x.toInt_lt
  have hgain := gain1_between x.toInt (Nat.le_of_lt_succ g.isLt)
  exact BitVec.toInt_ofInt_eq_self (by decide) (by omega) (by omega)

/-- Settles O25: the gain lies between the sample and 0, so that it fits the half of the word it came from. -/
theorem gainOfSamples : Obligations.GainOfSamples := by
  refine ⟨fun x g hlow hhigh hg => ?sample, fun w g => ?word⟩
  case sample =>
    obtain ⟨hle, hlt⟩ := gain1_floor x g
    have hgain := gain1_between x hg
    have habs : |gain1 x g| ≤ |x| := by
      rw [Int.abs_eq_natAbs, Int.abs_eq_natAbs]
      omega
    exact ⟨hle, hlt, habs, by omega, by omega, gain1_unity x⟩
  case word =>
    obtain ⟨hlo, hhi⟩ := extract_halves (BitVec.ofInt 16 (gain1 (w.extractLsb' 0 16).toInt g.toNat))
      (BitVec.ofInt 16 (gain1 (w.extractLsb' 16 16).toInt g.toNat))
    rw [gainWord, hlo, hhi]
    exact ⟨toInt_ofInt_gain1 _ g, toInt_ofInt_gain1 _ g⟩

/-! ## Post-processing (R451) -/

/-- Settles O26: the pass keeps the number of words and makes each the gain of its source, by induction on the pairs
(`getElem?_pairs`). -/
theorem sectorPairPassIsReversalAndGain : Obligations.SectorPairPassIsReversalAndGain := fun rev g _ _ hw =>
  ⟨length_processWords rev g hw, fun _ hj => getElem?_processWords rev g hw hj⟩

/-! ## The return of a slot (R456) -/

theorem unitOf_eq {sel : Byte} {k : Fin 2} (h : k.val = sel.toNat % 2) : unitOf sel = k := by
  have hbit : sel.getLsbD 0 = decide (sel.toNat % 2 = 1) := by
    rw [BitVec.getLsbD, Nat.testBit_zero]
  rw [unitOf, hbit, ← h]
  fin_cases k <;> rfl

theorem exec_aDone_of_given {sel : Byte} (s : State) (h : (s.slot (unitOf sel)).given = true) :
    exec (.aDone sel) s =
      .next (s.setSlot (unitOf sel) { s.slot (unitOf sel) with given := false, shown := false, state := .empty }) := by
  rw [exec, execADone, if_pos h]

/-- Settles O23: a given slot is replaced by an empty one, any other is rejected as `exec_aDone_of_not_given` says. -/
theorem doneReturnsTheSlot : Obligations.DoneReturnsTheSlot := by
  intro s sel k hk
  obtain rfl := unitOf_eq hk
  refine ⟨fun h => ?returned, fun h => ?rejected⟩
  case returned =>
    exact ⟨_, exec_aDone_of_given s h, s.setSlot_slot _ _, s.setSlot_slot_other _ _, rfl, fun _ => rfl⟩
  case rejected =>
    exact ⟨_, exec_aDone_of_not_given s h, s.raise_illegalOp 4 (by decide), fun _ => rfl⟩

end Sys2Proof.Machine
end

section
/-! PROOFS. No step stops the machine, and what a desync reset clears and keeps (spec/60_exceptions.md R501, R505, R506). -/

namespace Sys2Proof.Machine

/-! ## Every step completes (R501) -/

theorem exec_completes (i : Instr) (s : State) : ∃ t, exec i s = .next t := by
  by_cases h : i.port = .host
  · obtain ⟨f, hexec, -⟩ := exec_pipelineFree h
    exact ⟨f s, hexec s⟩
  · cases i
    case dQvalid | dQoffset | dAdvance | dTick | aDone => exact ⟨_, rfl⟩
    all_goals exact absurd rfl h

/-! ### A word at each port (R155): a legal one is executed, an illegal one raises an event -/

theorem State.commandPort_completes (s : State) (w : Word) : ∃ t, s.commandPort w = .next t := by
  cases h : decode .host w with
  | instr i => exact s.commandPort_of_decode h ▸ exec_completes i _
  | illegal => exact ⟨_, s.commandPort_of_illegal h⟩

theorem State.displayPort_completes (s : State) (c : Caller) (w : Word) : ∃ t, s.displayPort c w = .next t := by
  cases h : decode .display w with
  | instr i => exact s.displayPort_of_decode c h ▸ exec_completes i _
  | illegal => exact ⟨_, s.displayPort_of_illegal c h⟩

theorem State.audioPort_completes (s : State) (w : Word) : ∃ t, s.audioPort w = .next t := by
  cases h : decode .audio w with
  | instr i => exact s.audioPort_of_decode h ▸ exec_completes i _
  | illegal => exact ⟨_, s.audioPort_of_illegal h⟩

/-- spec/20_memory.md R107: a refused write is answered too. -/
theorem State.hostWrite_completes (s : State) (addr : Word) (size : Nat) (v : Word) :
    ∃ t, s.hostWrite addr size v = .next t := by
  unfold State.hostWrite
  split
  next =>
    split
    next => exact s.commandPort_completes v
    next => exact ⟨_, rfl⟩
  next => exact ⟨_, rfl⟩

theorem State.runTurn_completes (s : State) (turn : Turn) : ∃ t, s.runTurn turn = .next t := by
  cases turn with
  | hostWrite addr size v => exact s.hostWrite_completes addr size v
  | display c w => exact s.displayPort_completes c w
  | audio w => exact s.audioPort_completes w
  | dec | busRead | storLand | storComplete => exact ⟨_, rfl⟩

/-- Settles O6: a step is the turn that is due, and every turn completes. -/
theorem everyStepCompletes : Obligations.EveryStepCompletes := fun s =>
  step_eq s ▸ s.turnTaken.runTurn_completes s.nextTurn

/-! ## The desync reset (R505, R506) -/

/-- R500, R510: the two desync events have the cause codes 1 and 2, and share interrupt bit 0. -/
theorem Event.record_desync {c : Event} (h : c = .desyncRow ∨ c = .desyncUnderrun) (v : EventState) :
    (c.record v).cause = (if c = .desyncRow then 1 else 2) ∧ (c.record v).subcause = 0 ∧ c.irqBit = 0 := by
  rcases h with rfl | rfl <;> exact ⟨rfl, rfl, rfl⟩

theorem AudioSlot.afterDesync_of_given {v : AudioSlot} (h : v.given = true) : v.afterDesync = v := if_pos h

theorem AudioSlot.afterDesync_of_not_given {v : AudioSlot} (h : v.given = false) : v.afterDesync = AudioSlot.none :=
  if_neg (Bool.eq_false_iff.mp h)

theorem State.desyncReset_slot (s : State) (c : Event) (k : Fin 2) : (s.desyncReset c).slot k = (s.slot k).afterDesync := by
  fin_cases k <;> rfl

/-- R400: with no frame on display no row is visible. -/
theorem not_rowVisible_of_not_showing {s : State} (h : s.dsp.showing = false) (row : Nat) : ¬RowVisible s row :=
  fun ⟨hshow, _, _⟩ => Bool.eq_false_iff.mp h hshow

/-- Settles O52: the events by `Event.record_desync`, the slots by `State.desyncReset_slot`, every other field as the reset sets
or keeps it. -/
theorem desyncResetClearsThePipeline : Obligations.DesyncResetClearsThePipeline := by
  intro s c hc
  obtain ⟨hcause, hsub, hbit⟩ := Event.record_desync hc { s.ev with desyncCount := s.ev.desyncCount + 1 }
  refine ⟨_, rfl, toNat_add_one _, hcause, hsub, fun i hi => hbit ▸ Event.record_irqStatus c _ i hi, rfl, rfl, rfl, rfl, rfl,
    List.length_replicate, fun e he => List.eq_of_mem_replicate he, rfl, rfl, rfl, rfl, rfl, fun k hk => ?given,
    fun k hk => ?free, rfl, rfl, rfl, rfl, rfl, rfl, rfl, rfl, rfl, rfl, not_rowVisible_of_not_showing rfl⟩
  case given => rw [s.desyncReset_slot, AudioSlot.afterDesync_of_given hk]
  case free => rw [s.desyncReset_slot, AudioSlot.afterDesync_of_not_given hk]

end Sys2Proof.Machine
end

section
/-! PROOFS. The block after power-on and after the soft reset: every field, every register, and the invariants that hold from there
(spec/70_reset_and_hazards.md R550, R551, R561). -/

namespace Sys2Proof.Machine

/-! ## The soft reset (R551, R561) -/

/-- R58: a write of `CTRL` with `SRST` set is the soft reset, whatever its other bits. -/
theorem State.runTurn_softReset (s : State) {v : Word} (h : v.getLsbD 1 = true) :
    s.runTurn (.hostWrite 0x04 4 v) = .next s.softReset :=
  (s.runTurn_writeReg v (by decide) (by decide) (by decide)).trans (congrArg _ (if_pos h))

/-- R59: of the fields `STATUS` shows, only `DMA_BUSY` survives the soft reset. -/
theorem State.softReset_status (s : State) : statusWord s.softReset = if s.dma.busy = true then 0x00000100 else 0 := by
  have hword : statusWord s.softReset = BitVec.ofNat 32 (flagAt s.dma.busy 8) := by
    simp [statusWord, State.softReset, State.powerOn, FrameRec.none, AudioSlot.none, DecState.code, SlotState.code,
      flagAt_eq, irqLine]
  rw [hword]
  cases s.dma.busy <;> rfl

/-- Settles O51: the state is `State.softReset`, the buffers stand in the storage it keeps, and `STATUS` is
`State.softReset_status`. -/
theorem softResetKeepsTheReadInFlight : Obligations.SoftResetKeepsTheReadInFlight := fun s _ hv =>
  ⟨s.softReset, s.runTurn_softReset hv, rfl, State.bufByte_congr s.softReset_mem, s.softReset_status⟩

/-! ## Power-on (R550) -/

/-- R551 takes its values from R550: a soft reset changes nothing of a block just powered on. -/
theorem State.powerOn_softReset (p : Params) : (State.powerOn p).softReset = State.powerOn p := rfl

theorem State.powerOn_status (p : Params) : statusWord (State.powerOn p) = 0 := (State.powerOn p).softReset_status

theorem State.powerOn_slot (p : Params) (k : Fin 2) : (State.powerOn p).slot k = AudioSlot.none := by
  fin_cases k <;> rfl

theorem halves_zero : halves 0 0 = 0 := by decide

/-- `ID` and `VOLUME` aside, each register shows fields that are 0, or is reserved. -/
theorem State.powerOn_readReg (p : Params) (off : Nat) :
    (State.powerOn p).readReg off = if off = 0 then 0x56444543 else if off = 0x14 then 0xFF else 0 := by
  unfold State.readReg
  split
  -- `STATUS`, `STREAM` and `CAUSE`: packed from several fields
  case h_3 => exact State.powerOn_status p
  case h_11 | h_14 => simp [State.powerOn, StreamState.zero]
  -- two row indices, positions or counts
  case h_6 | h_7 | h_20 | h_21 => exact halves_zero
  -- no register
  case h_24 => rw [if_neg ‹off ≠ 0›, if_neg ‹off ≠ 0x14›]
  -- one field
  all_goals rfl

/-- Settles O49: the tables entry by entry, the slots by `State.powerOn_slot`, the registers by `State.powerOn_readReg`, every
other field as `State.powerOn` sets it. -/
theorem powerOnResetValues : Obligations.PowerOnResetValues := by
  refine ⟨?fields, fun p off _ _ => State.powerOn_readReg p off⟩
  rintro p s rfl
  exact ⟨rfl, rfl, rfl, rfl, rfl, fun _ h => Vector.getElem_replicate h, rfl, rfl, rfl, rfl, rfl, rfl,
    fun _ h => Vector.getElem_replicate h, List.length_replicate, fun _ hv => List.eq_of_mem_replicate hv, rfl,
    List.length_replicate, fun _ hv => List.eq_of_mem_replicate hv, rfl, fun _ hf => hf.elim id id, rfl, rfl,
    State.powerOn_slot p, rfl, rfl, rfl, fun _ => rfl⟩

/-! ## The invariants at power-on -/

theorem State.powerOn_syncInv (p : Params) : SyncInv (State.powerOn p) :=
  State.powerOn_softReset p ▸ (State.powerOn p).softReset_syncStep.inv

/-- Settles O57: nothing is stored, DEC stands in INIT, which may poll, the speeds and the row table are 0, and the display-sync
invariant holds after every reset. -/
theorem invariantsHoldAtReset : Obligations.InvariantsHoldAtReset :=
  ⟨fun p => ⟨rfl, fun _ => .inl rfl, ⟨speedLegal_zero, speedLegal_zero, speedLegal_zero⟩, rowTableOk_of_cleared rfl,
    State.powerOn_syncInv p⟩, State.powerOn_syncInv Config.params⟩

end Sys2Proof.Machine
end

section
/-! PROOFS. Every step keeps the canonical form of the model's byte storage (spec/20_memory.md R102, R112; log 4): the buffers are
written by STOR's landing, the completion of a stale read and DEC's post-processing only, each by `Memory.write`. -/

namespace Sys2Proof.Machine

variable {s t : State}

/-- R112: each part of a read lands in canonical form. -/
theorem State.storLand_wf (n : Nat) (h : Memory.wf s.mem = true) : Memory.wf (s.storLand n).mem = true := by
  unfold State.storLand
  split
  · exact landWords_wf _ _ _ _ _ _ h
  · exact h

/-- R292: DEC leaves the buffers, or post-processes one. -/
theorem decStep_wf (h : Memory.wf s.mem = true) (hd : decStep s = some t) : Memory.wf t.mem = true := by
  rcases decStep_mem hd with hkept | ⟨k, hprocessed⟩
  · exact hkept ▸ h
  · exact hprocessed ▸ s.postProcess_wf k h

theorem State.runTurn_wf {turn : Turn} (h : Memory.wf s.mem = true) (ht : s.runTurn turn = .next t) :
    Memory.wf t.mem = true := by
  refine State.runTurn_cases (P := fun u => Memory.wf u.mem = true) ht
    (hold := fun _ _ => h) (dec := fun _ _ => decStep_wf h)
    (writeReg := fun off v => s.writeReg_mem off v ▸ h) (writeError := h)
    (run := fun _ _ _ _ _ _ he => (exec_keeps _ _ _ he).mem ▸ h)
    (runDisplay := fun _ _ _ _ _ he => (exec_keeps _ _ _ he).mem ▸ h)
    (illegal := fun _ => h) (illegalDisplay := fun _ _ => h)
    (busRead := fun r addr size => ?busRead)
    (land := fun n => State.storLand_wf n h) (complete := s.storComplete_wf h)
  case busRead =>
    rw [s.busRead_eq]
    exact h

/-- Settles O53: taking the turn leaves the buffers, and the turn keeps their form. -/
theorem memoryStaysCanonical : Obligations.MemoryStaysCanonical := by
  intro s t h ht
  rw [step_eq, s.turnTaken_eq] at ht
  exact State.runTurn_wf (s := { s with env := s.turnTaken.env }) h ht

end Sys2Proof.Machine
end
